-- ==== Sys2Proof/Word.lean ====
section
/-! DEFINITION. The words of the AZL-2408's links and tables (spec/11 R172): bytes, 16-bit fields, 24-bit samples and taps, and the slot of 64 samples. -/

namespace Sys2Proof

/-- A byte of the link. -/
abbrev Byte := BitVec 8

/-- A field of two bytes. -/
abbrev Half := BitVec 16

/-- A sample or a tap: a 24-bit two's complement fraction (R172). -/
abbrev Sample := BitVec 24

/-- The 64 samples of one audio slot in one link block, or the 64 taps of one coefficient set, number 0 first. -/
abbrev Slot := List Sample

/-- Silence is 64 samples of 000000 (R172). -/
def silence : Slot := List.replicate 64 0

end Sys2Proof
end

