-- ==== Sys2Proof/Config.lean ====
section
/-! DEFINITION. The sizes the spec fixes for the part (spec/00 section 4). The spec leaves no result open that a free value would stand for, so there is no uninterpreted constant here. -/

namespace Sys2Proof.Config

/-- Capture channels per part, 0 to 23. -/
def numChannels : Nat := 24
/-- References per part, 0 to 7. -/
def numReferences : Nat := 8
/-- Path records, 0 to 63. -/
def numPaths : Nat := 64
/-- Partitions of the pool, 0 to 6143. -/
def poolSize : Nat := 6144
/-- Audio slots of an outbound link block. -/
def outSlots : Nat := 16
/-- Audio slots of an inbound link block. -/
def inSlots : Nat := 32
/-- Samples of a slot in one block, and taps of a coefficient set. -/
def blockSamples : Nat := 64
/-- Blocks of one reference's history (R41). -/
def historyBlocks : Nat := 512
/-- Longest path, in partitions (R6). -/
def maxPathLength : Nat := 448
/-- Paths a capture channel may hold (R11). -/
def pathsPerChannel : Nat := 4
/-- Partitions one seed step may rewrite (R86). -/
def seedBudget : Nat := 48
/-- Replies the reply queue holds (R147). -/
def replyCapacity : Nat := 16
/-- Notices the notice queue holds (R147). -/
def noticeCapacity : Nat := 8
/-- Packets the forward FIFO holds (R136). -/
def forwardCapacity : Nat := 8
/-- Consecutive good headers in sequence that make the lock LOCKED (R139). -/
def acquireLimit : Nat := 16
/-- Loss count at which the lock is lost (R140). -/
def lossLimit : Nat := 3
/-- Block periods of silence that are reported, on either side (R134, R141). -/
def silenceLimit : Nat := 48
/-- Clipped blocks in a row that raise CAPTURE_CLIP (R34). -/
def clipLimit : Nat := 32
/-- Bytes of a control window: the length field and the room for a packet (11.1). -/
def windowBytes : Nat := 212
/-- Bytes of a control window that hold the packet (R173). -/
def packetRoom : Nat := 210
/-- Largest payload of a COMMAND or a REPLY (R143). -/
def payloadLimit : Nat := 200
/-- Bytes of a link block's header (R173). -/
def headerBytes : Nat := 7

end Sys2Proof.Config
end

