-- ==== Sys2Proof/Syntax.lean ====
section
/-! DEFINITION. The commands and events the part takes: one constructor for each row of spec/opcode_table.json. A command row carries its tag and the fields of its request payload as they stand on the wire (spec/11 section 11.4), so that every refusal can be met. -/

namespace Sys2Proof

/-- What may come between two channel blocks of one inbound link block (R49, R112): a command, an outbound block period with its appends, a
seed step, or the transmission that a readback grant belongs to. Each is whole, like the row of its name (log 30). -/
inductive Interlude where
  /-- A command taken: its code, tag and request payload (R144). -/
  | command (code tag : Byte) (payload : List Byte)
  /-- OUTBOUND_GOOD_ARRIVAL (R129). -/
  | outboundGood (seq flags : Byte) (slots : List Slot) (window : List Byte) (stepFirst : Bool := false)
  /-- OUTBOUND_BAD_ARRIVAL (R130). -/
  | outboundBad (slots : List Slot)
  /-- BLOCK_INTERVAL_TIMER_EXPIRY (R131). -/
  | timerExpiry
  /-- SEED_STEP (R85). -/
  | seedStep
  /-- INBOUND_BLOCK_TRANSMIT (R158). -/
  | transmit
  deriving DecidableEq, Repr

inductive Instr where
  /-- Supply is applied (R170). -/
  | powerOn
  /-- The reset pin is asserted and held (R126). -/
  | resetPinAssert
  /-- The held reset pin is released (R170). -/
  | resetPin
  /-- A good header at the core port: its sequence number and flags byte, 16 slots, the 212 bytes of the control window (R129), and whether the
  period's seed step comes before the handling of the block (log 4). -/
  | outboundGoodArrival (seq flags : Byte) (slots : List Slot) (window : List Byte) (stepFirst : Bool := false)
  /-- A bad header at the core port: the 16 slots as they arrived (R130). -/
  | outboundBadArrival (slots : List Slot)
  /-- The block interval timer expires (R131). -/
  | blockIntervalTimerExpiry
  /-- The lock's transition at the 16th good header in sequence (R139). -/
  | lockAcquired
  /-- The lock's transition at the third bad, missing or out-of-sequence header in a row (R140). -/
  | lockLoss
  /-- The core-silence count's transition from 47 to 48 (R141). -/
  | coreSilence
  /-- A block period mark's advance of the room-silence count (R134), with what falls between the channel blocks of the filler block it
  originates. -/
  | roomSilenceAdvance (between : List (Nat × Interlude) := [])
  /-- That advance when it brings the count from 47 to 48 (R134). -/
  | roomSilence (between : List (Nat × Interlude) := [])
  /-- A good header at the room port: its sequence number and flags byte, 32 slots, the 212 bytes of the control window (R135), with what
  falls between its channel blocks: each interlude stands before the block of the channel it names (log 30). -/
  | inboundGoodArrival (seq flags : Byte) (slots : List Slot) (window : List Byte) (between : List (Nat × Interlude) := [])
  /-- A bad header at the room port: the 32 slots as they arrived (R138), with what falls between its channel blocks. -/
  | inboundBadArrival (slots : List Slot) (between : List (Nat × Interlude) := [])
  /-- The core port begins to send the next waiting inbound block (R158). -/
  | inboundBlockTransmit
  /-- The seed engine's step of the block period (R86). -/
  | seedStep
  /-- Stage 7 of the block that ends a channel's window, with that block's energies as sums of squares (R69, R70). -/
  | windowEnd (channel capture live background : Nat)
  /-- The clip test of the 32nd clipped block in a row of a channel (R34). -/
  | captureClip (channel : Nat)
  /-- The activity test of a quiet block that finds an ACTIVE reference's hangover count at 0 (R47). -/
  | activityHangoverExpiry (reference : Nat)
  /-- The detector update of a block without raw near that ends a channel's near hangover (R98). -/
  | nearHangoverExpiry (channel : Nat)
  | allocatePath (tag channel reference : Byte) (length : Half) (step : Byte)
  | releasePath (tag path : Byte)
  | resizePath (tag path : Byte) (length : Half)
  | setStep (tag path step : Byte)
  | readPathRecord (tag path : Byte)
  | readPool (tag : Byte)
  | readChain (tag selector : Byte) (start : Half) (count : Byte)
  | writeChannel (tag channel slot mode : Byte)
  | readChannel (tag channel : Byte)
  | writeReference (tag reference slot bulk depth : Byte) (threshold : Half) (hangover : Byte)
  | readReference (tag reference : Byte)
  | freezeChannel (tag channel value : Byte)
  | writeCoeff (tag path : Byte) (index : Half) (taps : Slot)
  | writeComparison (tag window promoteMargin promoteCount divergenceMargin divergenceCount reseedLimit threshold : Byte)
  | promoteChannel (tag channel : Byte)
  | readChannelStats (tag channel : Byte)
  | readSeedQueue (tag start count : Byte)
  | writeDetector (tag channel nearThreshold echoMargin enterDebounce nearHangover : Byte)
  | writeDecision (tag bank entry control mask want target : Byte)
  | readDecision (tag bank entry : Byte)
  | selectDecisionBank (tag bank : Byte)
  | writeSuppressor (tag channel attack release offset : Byte)
  | status (tag : Byte)
  | readPath (tag path set : Byte) (first count : Half)
  | abortRead (tag : Byte)
  | setNotice (tag fault state path : Byte)
  | setMode (tag mode : Byte)
  | readFaults (tag : Byte)
  | clearFaults (tag : Byte) (classes : Half)
  | writeFaultPolicy (tag : Byte) (masks severities : Half)
  | setSafeAction (tag action : Byte)
  | resetFull (tag : Byte)
  | resetAdaptation (tag : Byte)
  deriving DecidableEq, Repr

end Sys2Proof
end

