-- ==== Sys2Proof/WellFormed.lean ====
section
/-! DEFINITION. Which rows have the shape a link block, a payload or a table of the part can give them: the numbers of slots, samples, window bytes and taps (spec/11 section 11.1, 11.4) and the numbers of channels and references (spec/00 section 4), in the rows and in the interludes of a link block's processing. A payload field outside its range is well formed: the part itself refuses it. -/

namespace Sys2Proof

/-- A slot of one link block: 64 samples (R125). -/
def slotWellFormed (b : Slot) : Bool := b.length == Config.blockSamples

/-- The slots of a link block: `n` of them, each of 64 samples (R125). -/
def slotsWellFormed (n : Nat) (slots : List Slot) : Bool := slots.length == n && slots.all slotWellFormed

/-- The largest sum of squares 64 samples can have: 64 times the square of negative full scale. -/
def energyBound : Nat := 64 * 2 ^ 46

/-- The shape check of an interlude: that of the row of its name, and a payload no longer than a packet's (R143). -/
def Interlude.wellFormed : Interlude → Bool
  | .command _ _ payload => decide (payload.length ≤ Config.payloadLimit)
  | .outboundGood _ _ slots window _ => slotsWellFormed Config.outSlots slots && window.length == Config.windowBytes
  | .outboundBad slots => slotsWellFormed Config.outSlots slots
  | .timerExpiry | .seedStep | .transmit => true

/-- Interludes stand before the block of a channel there is, and each has its shape. -/
def betweenWellFormed (between : List (Nat × Interlude)) : Bool :=
  between.all fun x => decide (x.1 < Config.numChannels) && x.2.wellFormed

/-- The shape check of a row. -/
def Instr.wellFormed : Instr → Bool
  | .outboundGoodArrival _ _ slots window _ => slotsWellFormed Config.outSlots slots && window.length == Config.windowBytes
  | .outboundBadArrival slots => slotsWellFormed Config.outSlots slots
  | .inboundGoodArrival _ _ slots window between =>
      slotsWellFormed Config.inSlots slots && window.length == Config.windowBytes && betweenWellFormed between
  | .inboundBadArrival slots between => slotsWellFormed Config.inSlots slots && betweenWellFormed between
  | .roomSilenceAdvance between => betweenWellFormed between
  | .roomSilence between => betweenWellFormed between
  | .windowEnd channel capture live background =>
      decide (channel < Config.numChannels) && decide (capture ≤ energyBound) && decide (live ≤ energyBound) && decide (background ≤ energyBound)
  | .captureClip channel => decide (channel < Config.numChannels)
  | .nearHangoverExpiry channel => decide (channel < Config.numChannels)
  | .activityHangoverExpiry reference => decide (reference < Config.numReferences)
  | .writeCoeff _ _ _ taps => slotWellFormed taps
  | .powerOn | .resetPinAssert | .resetPin | .blockIntervalTimerExpiry | .lockAcquired | .lockLoss | .coreSilence
  | .inboundBlockTransmit | .seedStep => true
  | .allocatePath .. | .releasePath .. | .resizePath .. | .setStep .. | .readPathRecord .. | .readPool _ | .readChain ..
  | .writeChannel .. | .readChannel .. | .writeReference .. | .readReference .. | .freezeChannel .. | .writeComparison ..
  | .promoteChannel .. | .readChannelStats .. | .readSeedQueue .. | .writeDetector .. | .writeDecision .. | .readDecision ..
  | .selectDecisionBank .. | .writeSuppressor .. | .status _ | .readPath .. | .abortRead _ | .setNotice .. | .setMode ..
  | .readFaults _ | .clearFaults .. | .writeFaultPolicy .. | .setSafeAction .. | .resetFull _ | .resetAdaptation _ => true

end Sys2Proof
end

