-- ==== Sys2Proof/Decode.lean ====
section
/-! DEFINITION. Reading a row from the bits of spec/opcode_table.json. The table gives no row any bits (its rows have neither fixed bits nor fields), so no word spells a row. How a command is read from a control packet's bytes is in Machine/Taking.lean, and how an arrival is read from a link block's bytes is in Machine/Operands.lean. -/

namespace Sys2Proof

/-- The row that a word of the table's bits spells: none, for no row has bits. -/
def decodeTableWord (_nbits _w : Nat) : Option Instr := none

end Sys2Proof
end

