-- ==== Sys2Proof/Machine/Records.lean ====
section
/-! DEFINITION. The records that make up the part's state, block by block as spec/00 section 3 lists the blocks, each with the values the spec gives it after a reset. -/

namespace Sys2Proof.Machine

/-! ### Partitions and paths (chapter 1) -/

/-- The two coefficient sets of a partition. -/
inductive SetId where
  | a
  | b
  deriving DecidableEq, Repr

/-- The set that is not this one: the background set of a path whose live set is this one (R8). -/
def SetId.other : SetId → SetId
  | .a => .b
  | .b => .a

/-- One coefficient set of one partition: 64 taps, and whether its stored parity value mismatches them (R1). -/
structure CoeffSet where
  taps  : Slot
  upset : Bool
  deriving DecidableEq, Repr

/-- A set of 64 zero taps with matching parity. -/
def CoeffSet.zero : CoeffSet := { taps := silence, upset := false }

/-- The taps a read of the set yields: a mismatch makes them zeros (R59). -/
def CoeffSet.read (c : CoeffSet) : Slot := if c.upset then silence else c.taps

/-- A partition's two sets (R1). Its next link is read off the chain it lies in. -/
structure Partition where
  a : CoeffSet
  b : CoeffSet
  deriving DecidableEq, Repr

/-- Both sets zero with matching parity: what a reset or a CLEAR leaves (R1, R87). -/
def Partition.zero : Partition := { a := CoeffSet.zero, b := CoeffSet.zero }

/-- The set a set name picks. -/
def Partition.get (p : Partition) : SetId → CoeffSet
  | .a => p.a
  | .b => p.b

/-- The partition with one set replaced. -/
def Partition.put (p : Partition) : SetId → CoeffSet → Partition
  | .a, c => { p with a := c }
  | .b, c => { p with b := c }

/-- The stored partitions, by number: numbers rising, none equal to `Partition.zero`, which is what an unlisted number reads as. -/
abbrev PartitionStore := List (Nat × Partition)

/-- The partition pool: the free list in order (R3) and the contents of the partitions (R1). -/
structure Pool where
  free  : List Nat
  cells : PartitionStore
  deriving DecidableEq, Repr

/-- Partitions 0 to 6143 free in ascending order, all zero (R1, R3). -/
def Pool.initial : Pool := { free := List.range' 0 6144, cells := [] }

inductive PathState where
  | unused
  | seeding
  | ready
  deriving DecidableEq, Repr

/-- A path record (R6). The length, the chain head and the chain tail are those of `chain`. -/
structure PathRecord where
  state     : PathState
  owner     : Option Nat
  reference : Option Nat
  chain     : List Nat
  live      : SetId
  step      : Nat
  readHeld  : Bool
  deriving DecidableEq, Repr

/-- The UNUSED values of R6. -/
def PathRecord.unused : PathRecord :=
  { state := .unused, owner := none, reference := none, chain := [], live := .a, step := 6, readHeld := false }

/-- The length field of R6: how many partitions the chain holds. -/
def PathRecord.length (r : PathRecord) : Nat := r.chain.length

/-- The set a path's background estimate is formed from (R8). -/
def PathRecord.background (r : PathRecord) : SetId := r.live.other

/-! ### References (chapter 2) -/

/-- A reference record (R35). The threshold counts steps of 0.5 dB. -/
structure Reference where
  slot          : Option Nat
  bulk          : Nat
  depth         : Nat
  threshold     : Int
  hangover      : Nat
  active        : Bool
  hangoverCount : Nat
  parityBad     : Bool
  deriving DecidableEq, Repr

/-- The reset values of R35. -/
def Reference.initial : Reference :=
  { slot := none, bulk := 0, depth := 0, threshold := -120, hangover := 40, active := false, hangoverCount := 0, parityBad := false }

/-- A reference's dither modulator: sweep position and memory (R46). -/
structure Modulator where
  sweep   : Nat
  lastIn  : Sample
  lastOut : Sample
  deriving DecidableEq, Repr

/-- Position 0 and a cleared memory (R46). -/
def Modulator.initial : Modulator := { sweep := 0, lastIn := 0, lastOut := 0 }

/-- The modulator with its memory cleared and its position held (R46). -/
def Modulator.cleared (m : Modulator) : Modulator := { m with lastIn := 0, lastOut := 0 }

/-- 512 silent blocks (R43). -/
def silentHistory : List Slot := List.replicate 512 silence

/-! ### Capture channels (chapters 2 to 7) -/

inductive ChannelMode where
  | pass
  | cancel
  | mute
  deriving DecidableEq, Repr

/-- The comparison state of a channel (R67). -/
structure ComparisonState where
  count            : Nat
  captureSum       : Nat
  liveSum          : Nat
  backgroundSum    : Nat
  farCount         : Nat
  disturbed        : Bool
  promoteStreak    : Nat
  divergenceStreak : Nat
  reseedCount      : Nat
  pendingPromote   : Bool
  erle             : Option Nat
  liveLevel        : Option Int
  backgroundLevel  : Option Int
  flagB            : Bool
  flagU            : Bool
  deriving DecidableEq, Repr

/-- The reset values of R67. -/
def ComparisonState.initial : ComparisonState :=
  { count := 0, captureSum := 0, liveSum := 0, backgroundSum := 0, farCount := 0, disturbed := false, promoteStreak := 0,
    divergenceStreak := 0, reseedCount := 0, pendingPromote := false, erle := none, liveLevel := none, backgroundLevel := none,
    flagB := false, flagU := true }

/-- Detector parameters (R95; the dB ones count steps of 0.5 dB) and counters (R96). -/
structure DetectorState where
  nearThreshold : Nat
  echoMargin    : Nat
  enterDebounce : Nat
  nearHangover  : Nat
  debounce      : Nat
  hangover      : Nat
  nearActive    : Bool
  deriving DecidableEq, Repr

/-- The reset values of R95 and R96. -/
def DetectorState.initial : DetectorState :=
  { nearThreshold := 18, echoMargin := 24, enterDebounce := 3, nearHangover := 60, debounce := 0, hangover := 0, nearActive := false }

/-- The counters back at their reset value, the parameters kept (R96). -/
def DetectorState.countersReset (d : DetectorState) : DetectorState := { d with debounce := 0, hangover := 0, nearActive := false }

inductive TalkState where
  | quiet
  | far
  | near
  | double
  deriving DecidableEq, Repr

/-- The seven flags of a channel block (R102). -/
structure TalkFlags where
  f : Bool
  n : Bool
  d : Bool
  c : Bool
  b : Bool
  s : Bool
  u : Bool
  deriving DecidableEq, Repr

/-- The last-block record (R102). -/
structure LastBlock where
  talk  : TalkState
  flags : TalkFlags
  deriving DecidableEq, Repr

/-- QUIET with all seven flags clear (R102). -/
def LastBlock.initial : LastBlock :=
  { talk := .quiet, flags := { f := false, n := false, d := false, c := false, b := false, s := false, u := false } }

/-- Suppressor fields (R114): attack, release, offset and gain count steps of 0.5 dB, the floor estimate steps of 0.25 dB. -/
structure SuppressorState where
  attack   : Nat
  release  : Nat
  offset   : Int
  gain     : Int
  floor    : Int
  noisePos : Nat
  deriving DecidableEq, Repr

/-- The reset values of R114 for channel `c`. -/
def SuppressorState.initial (c : Nat) : SuppressorState :=
  { attack := 6, release := 1, offset := 0, gain := 0, floor := -480, noisePos := 349525 * c }

/-- A capture channel record (R25, R61, R67, R95, R96, R102, R114). -/
structure Channel where
  slot       : Option Nat
  mode       : ChannelMode
  parityBad  : Bool
  paths      : List Nat
  clipRun    : Nat
  frozen     : Bool
  comparison : ComparisonState
  detector   : DetectorState
  last       : LastBlock
  suppressor : SuppressorState
  deriving DecidableEq, Repr

/-- The reset values of channel `c`. -/
def Channel.initial (c : Nat) : Channel :=
  { slot := none, mode := .pass, parityBad := false, paths := [], clipRun := 0, frozen := false, comparison := ComparisonState.initial,
    detector := DetectorState.initial, last := LastBlock.initial, suppressor := SuppressorState.initial c }

/-! ### Comparator parameters (chapter 4) and seed engine (chapter 5) -/

/-- The comparator's parameters (R66); margins and threshold count steps of 0.5 dB. -/
structure ComparatorParams where
  window           : Nat
  promoteMargin    : Nat
  promoteCount     : Nat
  divergenceMargin : Nat
  divergenceCount  : Nat
  reseedLimit      : Nat
  threshold        : Nat
  deriving DecidableEq, Repr

/-- The reset values of R66. -/
def ComparatorParams.initial : ComparatorParams :=
  { window := 16, promoteMargin := 2, promoteCount := 2, divergenceMargin := 12, divergenceCount := 2, reseedLimit := 6, threshold := 12 }

inductive SeedKind where
  | clear
  | copy
  deriving DecidableEq, Repr

/-- A seed request (R83). -/
structure SeedRequest where
  path  : Nat
  kind  : SeedKind
  first : Nat
  count : Nat
  done  : Nat
  deriving DecidableEq, Repr

/-- The seed queue, oldest first (R82), and whether the step of the period marked last is still to be taken (R85; log 4). -/
structure SeedEngine where
  queue   : List SeedRequest
  granted : Bool
  deriving DecidableEq, Repr

/-- An empty queue and no step granted. -/
def SeedEngine.initial : SeedEngine := { queue := [], granted := false }

/-! ### Decision unit (chapter 6) -/

/-- A decision entry (R103). Mask and match hold a flag as the bit the wire gives it (11.3); the target is in whole dB. -/
structure DecisionEntry where
  valid     : Bool
  mask      : BitVec 7
  want      : BitVec 7
  adapt     : Bool
  stepScale : Nat
  target    : Nat
  fill      : Bool
  parityBad : Bool
  deriving DecidableEq, Repr

/-- The entry that is not valid of R104. -/
def DecisionEntry.blank : DecisionEntry :=
  { valid := false, mask := 0, want := 0, adapt := false, stepScale := 0, target := 0, fill := false, parityBad := false }

/-- A valid factory entry. -/
def DecisionEntry.factory (mask want : BitVec 7) (adapt : Bool) (target : Nat) (fill : Bool) : DecisionEntry :=
  { valid := true, mask := mask, want := want, adapt := adapt, stepScale := 0, target := target, fill := fill, parityBad := false }

/-- The six factory entries of bank 0 (R104), flags F N D C B S U being bits 6 to 0. -/
def factoryEntries : List DecisionEntry :=
  [ .factory 0b0001000 0b0001000 false 0 false,
    .factory 0b0000010 0b0000010 false 6 false,
    .factory 0b1000001 0b1000001 true 0 false,
    .factory 0b0010000 0b0010000 false 6 false,
    .factory 0b1100000 0b1000000 true 18 true,
    .factory 0b1000000 0b0000000 false 0 false ]

/-- The two decision banks and the active-bank selector, 0 or 1 (R103). -/
structure Decision where
  bank0  : List DecisionEntry
  bank1  : List DecisionEntry
  active : Nat
  deriving DecidableEq, Repr

/-- The banks and the selector after a reset (R104). -/
def Decision.initial : Decision :=
  { bank0 := factoryEntries ++ List.replicate 10 DecisionEntry.blank, bank1 := List.replicate 16 DecisionEntry.blank, active := 0 }

/-! ### Fault classes and the fault log (chapter 10) -/

inductive FaultClass where
  | headerCrc
  | packetError
  | clockUnlock
  | coreSilence
  | roomSilence
  | forwardOverflow
  | replyOverflow
  | noticeOverflow
  | captureClip
  | channelUnstable
  | coeffParity
  | tableParity
  deriving DecidableEq, Repr

/-- The class codes of 11.5. -/
def FaultClass.code : FaultClass → Nat
  | .headerCrc => 0
  | .packetError => 1
  | .clockUnlock => 2
  | .coreSilence => 3
  | .roomSilence => 4
  | .forwardOverflow => 5
  | .replyOverflow => 6
  | .noticeOverflow => 7
  | .captureClip => 8
  | .channelUnstable => 9
  | .coeffParity => 10
  | .tableParity => 11

/-- The set that holds this class alone, as the wire gives sets of classes (11.3). -/
def FaultClass.bit (c : FaultClass) : BitVec 12 := 1#12 <<< c.code

inductive NoticeKind where
  | fault
  | state
  | pathReady
  deriving DecidableEq, Repr

inductive Port where
  | core
  | room
  deriving DecidableEq, Repr

/-- What a raise is about (R165, 11.5). -/
inductive Subject where
  | port (p : Port)
  | channel (c : Nat)
  | reference (r : Nat)
  | path (p index : Nat)
  | bankEntry (bank entry : Nat)
  | tag (t : Byte)
  | noticeKind (k : NoticeKind)
  deriving DecidableEq, Repr

inductive OpState where
  | offline
  | run
  | bypass
  | safe
  deriving DecidableEq, Repr

inductive SafeAction where
  | pass
  | mute
  deriving DecidableEq, Repr

inductive ResetCause where
  | power
  | pin
  | command
  deriving DecidableEq, Repr

/-- The reason a STATE notice gives (R155). -/
inductive Reason where
  | locked
  | command
  | fault (c : FaultClass)
  deriving DecidableEq, Repr

/-- The first-fault record's contents (R167). -/
structure FaultRecord where
  cls     : FaultClass
  subject : Subject
  tag     : Option Byte
  seq     : Byte
  deriving DecidableEq, Repr

/-- The state and fault unit (R160, R164, R165, R167, R170). In the three sets, bit k is the class of code k. -/
structure FaultUnit where
  opState    : OpState
  safeAction : SafeAction
  cause      : ResetCause
  status     : BitVec 12
  masks      : BitVec 12
  severities : BitVec 12
  record     : Option FaultRecord
  multiple   : Bool
  deriving DecidableEq, Repr

/-- The default masks of R165: CAPTURE_CLIP alone is masked. -/
def defaultMasks : BitVec 12 := FaultClass.captureClip.bit

/-- The default severities of R165: CLOCK_UNLOCK, CORE_SILENCE, COEFF_PARITY and TABLE_PARITY are grave. -/
def defaultSeverities : BitVec 12 :=
  FaultClass.clockUnlock.bit ||| FaultClass.coreSilence.bit ||| FaultClass.coeffParity.bit ||| FaultClass.tableParity.bit

/-- The unit after power-on (R170's table). -/
def FaultUnit.initial : FaultUnit :=
  { opState := .offline, safeAction := .pass, cause := .power, status := 0, masks := defaultMasks, severities := defaultSeverities,
    record := none, multiple := false }

/-! ### Control unit (chapter 9) -/

inductive ReplyCode where
  | done
  | busy
  | state
  | range
  | noResource
  | conflict
  | unknown
  | length
  deriving DecidableEq, Repr

/-- A REPLY packet waiting in the reply queue (R145). -/
structure Reply where
  tag     : Byte
  code    : Byte
  outcome : ReplyCode
  payload : List Byte
  deriving DecidableEq, Repr

/-- A NOTICE packet waiting in the notice queue (R155). -/
inductive Notice where
  | fault (cls : FaultClass) (subject : Subject)
  | state (new : OpState) (reason : Reason) (cause : ResetCause)
  | pathReady (path : Nat)
  deriving DecidableEq, Repr

/-- The kind of a notice. -/
def Notice.kind : Notice → NoticeKind
  | .fault _ _ => .fault
  | .state _ _ _ => .state
  | .pathReady _ => .pathReady

/-- The set a READ PATH names. -/
inductive ReadSet where
  | live
  | background
  deriving DecidableEq, Repr

/-- What the streamer records of a readback (R150). -/
structure Readback where
  tag       : Byte
  path      : Nat
  set       : ReadSet
  next      : Nat
  remaining : Nat
  deriving DecidableEq, Repr

/-- The readback streamer (R150, R152). CLOSING holds the ABORTED packet of the readback it names. -/
inductive Streamer where
  | idle
  | streaming (rb : Readback)
  | closing (rb : Readback)
  deriving DecidableEq, Repr

/-- The two sources of the inbound window arbiter (R158). -/
inductive Source where
  | forward
  | own
  deriving DecidableEq, Repr

/-- The control unit: queues, streamer, arbiter and notice enables (R147, R150, R154, R156, R159). A packet in the forward FIFO is held
without its CRC, which is computed when the packet is sent. -/
structure Control where
  replies     : List Reply
  notices     : List Notice
  forward     : List (List Byte)
  streamer    : Streamer
  winner      : Source
  enableFault : Bool
  enableState : Bool
  enablePath  : Bool
  deriving DecidableEq, Repr

/-- The control unit after a reset (R154, R157). -/
def Control.initial : Control :=
  { replies := [], notices := [], forward := [], streamer := .idle, winner := .forward, enableFault := true, enableState := true,
    enablePath := false }

/-! ### Ports (chapter 8) -/

inductive LockState where
  | unlocked
  | acquiring
  | locked
  deriving DecidableEq, Repr

/-- A link block as transmitted: a good header with this number and filler flag, the slots, and the packet of its control window with
its CRC (none: the control-present flag is clear) (R125). -/
structure LinkBlock where
  seq    : Byte
  filler : Bool
  slots  : List Slot
  packet : Option (List Byte)
  deriving DecidableEq, Repr

/-- An inbound block that is ready to be sent and waits for the line; its control window is filled when its sending begins (R137, R158). -/
structure InboundBlock where
  seq    : Byte
  filler : Bool
  slots  : List Slot
  deriving DecidableEq, Repr

/-- The two ports (chapter 8's table of port state), the reset pin, the blocks waiting for the core port's line, what each port last
transmitted, and the room-silence marks still to be advanced. -/
structure Ports where
  lock         : LockState
  acquire      : Nat
  loss         : Nat
  timerRunning : Bool
  lastSeq      : Byte
  coreSilence  : Nat
  roomSilence  : Nat
  origination  : Bool
  skip         : Bool
  inTxSeq      : Byte
  armed        : Bool
  pinHeld      : Bool
  roomMarks    : Nat
  roomEarly    : Bool
  coreLine     : List InboundBlock
  roomTx       : Option LinkBlock
  coreTx       : Option LinkBlock
  deriving DecidableEq, Repr

/-- The ports after a reset (R126 to R142). -/
def Ports.initial : Ports :=
  { lock := .unlocked, acquire := 0, loss := 0, timerRunning := false, lastSeq := 255, coreSilence := 0, roomSilence := 0,
    origination := false, skip := false, inTxSeq := 255, armed := false, pinHeld := false, roomMarks := 0, roomEarly := false,
    coreLine := [], roomTx := none, coreTx := none }

end Sys2Proof.Machine
end

