-- ==== Sys2Proof/Machine/State.lean ====
section
/-! DEFINITION. The state of the part: one field for each block of spec/00 section 3, and the queue of commands and events that wait for it. -/

namespace Sys2Proof.Machine

/-- Reasons a step can stop with a fault: none. The part never stops: what its manual calls a fault is a class that is raised (R166),
an effect on the state. Safe: nothing is claimed of a stop. -/
inductive Fault
  deriving DecidableEq, Repr

/-- Reasons a step can be refused. -/
inductive Refusal where
  /-- No meaning for the row of this mnemonic. Only an arm of exec may answer so; every row has its meaning, so none does. Safe: a
  refused step claims nothing of the hardware. -/
  | notModelled (mnemonic : String)
  deriving DecidableEq, Repr

/-- The state of the AZL-2408, and the queue of its inputs. -/
structure State where
  ports      : Ports
  modulators : List Modulator
  references : List Reference
  histories  : List (List Slot)
  channels   : List Channel
  paths      : List PathRecord
  pool       : Pool
  comparator : ComparatorParams
  seed       : SeedEngine
  decision   : Decision
  control    : Control
  unit       : FaultUnit
  pending    : List Instr
  deriving DecidableEq, Repr

/-- The part right after power-on: every piece of state at the reset value of its rule, the reset cause POWER (R170), nothing waiting. -/
def State.reset : State :=
  { ports := Ports.initial
    modulators := List.replicate 8 Modulator.initial
    references := List.replicate 8 Reference.initial
    histories := List.replicate 8 silentHistory
    channels := (List.range 24).map Channel.initial
    paths := List.replicate 64 PathRecord.unused
    pool := Pool.initial
    comparator := ComparatorParams.initial
    seed := SeedEngine.initial
    decision := Decision.initial
    control := Control.initial
    unit := FaultUnit.initial
    pending := [] }

end Sys2Proof.Machine
end

