-- ==== Sys2Proof/Machine/Operands.lean ====
section
/-! DEFINITION. The wire formats of spec/11: field encodings, the order of bits on the line, CRC, control packets and windows, link blocks, as they are sent and as they are judged on receipt. -/

namespace Sys2Proof.Machine

/-! ### Fields (11.3) -/

/-- A one-byte count, number or code. -/
def byteOf (n : Nat) : Byte := BitVec.ofNat 8 n

/-- A signed byte. -/
def byteOfInt (i : Int) : Byte := BitVec.ofInt 8 i

/-- ON, yes, set: 1; OFF, no, clear: 0. -/
def byteOfBool (b : Bool) : Byte := if b then 1 else 0

/-- A number or none, none being FF. -/
def byteOrNone : Option Nat → Byte
  | none => 0xFF
  | some n => byteOf n

/-- A two-byte field, most significant byte first (R172). -/
def halfBytes (h : Half) : List Byte := [h.extractLsb' 8 8, h.extractLsb' 0 8]

/-- A two-byte count or number. -/
def bytes2 (n : Nat) : List Byte := halfBytes (BitVec.ofNat 16 n)

/-- A partition number or none, none being FFFF. -/
def partitionBytes : Option Nat → List Byte
  | none => [0xFF, 0xFF]
  | some n => bytes2 n

/-- Two bytes read as a field, the first the most significant (R172). -/
def halfOf (hi lo : Byte) : Half := hi ++ lo

/-- A sample or tap in three bytes (R172). -/
def sampleBytes (x : Sample) : List Byte := [x.extractLsb' 16 8, x.extractLsb' 8 8, x.extractLsb' 0 8]

/-- Samples or taps read from their bytes, three each. -/
def samplesOf : List Byte → List Sample
  | a :: b :: c :: rest => (a ++ b ++ c : BitVec 24) :: samplesOf rest
  | _ => []

/-- The bytes of a slot or of a set of taps, number 0 first. -/
def slotBytes (b : Slot) : List Byte := b.flatMap sampleBytes

/-- The field at byte `i` of a payload. -/
def payloadByte (p : List Byte) (i : Nat) : Byte := p.getD i 0

/-- The two-byte field at byte `i` of a payload. -/
def payloadHalf (p : List Byte) (i : Nat) : Half := halfOf (payloadByte p i) (payloadByte p (i + 1))

/-! ### Bits on the line (R172) -/

/-- The bits of a byte in the order in which they are sent, the most significant first (R172). -/
def byteBits (b : Byte) : List Bool := [7, 6, 5, 4, 3, 2, 1, 0].map b.getLsbD

/-- The bits of some bytes in the order in which they are sent. -/
def lineBits (bytes : List Byte) : List Bool := bytes.flatMap byteBits

/-- A byte from its bits in the order in which they come, the first the most significant (R172). -/
def byteOfBits (bits : List Bool) : Byte := bits.foldl (fun b bit => (b <<< 1) ||| (if bit then 1 else 0)) 0

/-- The bytes read from a run of bits, eight each; an incomplete last byte is left out. -/
def lineBytes : List Bool → List Byte
  | b7 :: b6 :: b5 :: b4 :: b3 :: b2 :: b1 :: b0 :: rest => byteOfBits [b7, b6, b5, b4, b3, b2, b1, b0] :: lineBytes rest
  | _ => []

/-! ### CRC (R174) -/

/-- The register fed one bit: generator x^16 + x^12 + x^5 + 1. -/
def crcBit (r : BitVec 16) (bit : Bool) : BitVec 16 :=
  if r.msb ^^ bit then (r <<< 1) ^^^ 0x1021 else r <<< 1

/-- The register fed one byte, most significant bit first. -/
def crcByte (r : BitVec 16) (b : Byte) : BitVec 16 := (byteBits b).foldl crcBit r

/-- The CRC of some bytes: the register starts at all ones and is not inverted at the end. -/
def crc (bytes : List Byte) : BitVec 16 := bytes.foldl crcByte 0xFFFF

/-- Bytes followed by their CRC, most significant byte first. -/
def withCrc (body : List Byte) : List Byte := body ++ halfBytes (crc body)

/-! ### Code values (11.2, 11.3, 11.5) -/

def ReplyCode.byte : ReplyCode → Byte
  | .done => 0
  | .busy => 1
  | .state => 2
  | .range => 3
  | .noResource => 4
  | .conflict => 5
  | .unknown => 6
  | .length => 7

def SetId.byte : SetId → Byte
  | .a => 0
  | .b => 1

def ReadSet.byte : ReadSet → Byte
  | .live => 0
  | .background => 1

def ChannelMode.byte : ChannelMode → Byte
  | .pass => 0
  | .cancel => 1
  | .mute => 2

/-- The mode of a WRITE CHANNEL's mode byte; none when it names no mode. -/
def modeOf (b : Byte) : Option ChannelMode :=
  if b = 0 then some .pass else if b = 1 then some .cancel else if b = 2 then some .mute else none

def PathState.byte : PathState → Byte
  | .unused => 0
  | .seeding => 1
  | .ready => 2

def OpState.byte : OpState → Byte
  | .offline => 0
  | .run => 1
  | .bypass => 2
  | .safe => 3

def LockState.byte : LockState → Byte
  | .unlocked => 0
  | .acquiring => 1
  | .locked => 2

def TalkState.byte : TalkState → Byte
  | .quiet => 0
  | .far => 1
  | .near => 2
  | .double => 3

def ResetCause.byte : ResetCause → Byte
  | .power => 0
  | .pin => 1
  | .command => 2

def SeedKind.byte : SeedKind → Byte
  | .clear => 0
  | .copy => 1

def NoticeKind.byte : NoticeKind → Byte
  | .fault => 1
  | .state => 2
  | .pathReady => 3

def Port.byte : Port → Byte
  | .core => 0
  | .room => 1

/-- The reason byte of a STATE notice (11.5). -/
def Reason.byte : Reason → Byte
  | .locked => 0
  | .command => 1
  | .fault c => byteOf (0x10 + c.code)

/-- The flags byte of 11.3 without its bit 7: F N D C B S U are bits 6 to 0. -/
def TalkFlags.bits (t : TalkFlags) : BitVec 7 :=
  BitVec.ofBool t.f ++ BitVec.ofBool t.n ++ BitVec.ofBool t.d ++ BitVec.ofBool t.c ++ BitVec.ofBool t.b ++ BitVec.ofBool t.s ++
    BitVec.ofBool t.u

/-- A set of flags in its byte, bit 7 being 0. -/
def flagsByte (m : BitVec 7) : Byte := m.setWidth 8

/-- The four bytes of a subject (11.5). -/
def Subject.bytes : Subject → List Byte
  | .port p => [1, p.byte, 0, 0]
  | .channel c => [2, byteOf c, 0, 0]
  | .reference r => [3, byteOf r, 0, 0]
  | .path p k => [4, byteOf p] ++ bytes2 k
  | .bankEntry b e => [5, byteOf b] ++ bytes2 e
  | .tag t => [6, t, 0, 0]
  | .noticeKind k => [7, k.byte, 0, 0]

/-- A set of fault classes in its two bytes. -/
def classSetBytes (s : BitVec 12) : List Byte := halfBytes (s.setWidth 16)

/-- The seven bytes of the first-fault record (11.5). Byte 5 of an occupied record without a tag, and bit 4 of its byte 0, to which 11.5 gives
no content, are sent as 0 (log 32, the model's choice). -/
def FaultUnit.recordBytes (u : FaultUnit) : List Byte :=
  match u.record with
  | none => [if u.multiple then 0x40 else 0, 0, 0, 0, 0, 0, 0]
  | some r =>
    [byteOf (0x80 + (if u.multiple then 0x40 else 0) + (if r.tag.isSome then 0x20 else 0) + r.cls.code)] ++ r.subject.bytes ++
      [r.tag.getD 0, r.seq]

/-- The control byte of a decision entry: valid bit 7, adapt bit 6, fill bit 5, step scale bits 1 and 0 (11.4). -/
def DecisionEntry.control (e : DecisionEntry) : Byte :=
  byteOf ((if e.valid then 0x80 else 0) + (if e.adapt then 0x40 else 0) + (if e.fill then 0x20 else 0) + e.stepScale)

/-! ### Packets the part sends (11.2, 11.5), each before its CRC and with origin 0 (R143) -/

def Reply.body (r : Reply) : List Byte := [0x20, r.tag, r.code, r.outcome.byte, byteOf r.payload.length] ++ r.payload

def Notice.body : Notice → List Byte
  | .fault c subject => [0x40, 1, 5, byteOf c.code] ++ subject.bytes
  | .state new reason cause => [0x40, 2, 3, new.byte, reason.byte, cause.byte]
  | .pathReady p => [0x40, 3, 1, byteOf p]

/-- A DATA packet with its taps; `last` says whether its end status is LAST or MORE. Bits 6 to 2 of byte 3, which 11.2 gives no content, are
sent as 0 (log 32, the model's choice). -/
def Readback.dataBody (rb : Readback) (last : Bool) (taps : Slot) : List Byte :=
  [0x30, rb.tag, byteOf rb.path, byteOf (rb.set.byte.toNat * 0x80 + (if last then 1 else 0))] ++ bytes2 rb.next ++ slotBytes taps

/-- The DATA packet of end status ABORTED, which carries no taps (R152). Bits 6 to 2 of byte 3 are sent as 0, as in every DATA packet
(log 32, the model's choice). -/
def Readback.abortedBody (rb : Readback) : List Byte :=
  [0x30, rb.tag, byteOf rb.path, byteOf (rb.set.byte.toNat * 0x80 + 2)] ++ bytes2 rb.next

/-! ### Control windows (11.1, R173) -/

/-- The 212 bytes of a control window that holds this packet, or none. -/
def windowOf : Option (List Byte) → List Byte
  | none => List.replicate 212 0
  | some p => bytes2 p.length ++ p ++ List.replicate (210 - p.length) 0

/-- The window length L of a received window. -/
def windowLength (w : List Byte) : Nat := (payloadHalf w 0).toNat

/-- The bytes a received window says its packet has. -/
def windowPacket (w : List Byte) : List Byte := (w.drop 2).take (windowLength w)

/-- The packet without its last two bytes, which are its CRC. -/
def packetBody (p : List Byte) : List Byte := p.take (p.length - 2)

/-- The packet's kind code and its distance or origin: bits 7-4 and bits 3-0 of its first byte. -/
def packetKind (p : List Byte) : Nat := (payloadByte p 0).toNat / 16
def packetHop (p : List Byte) : Nat := (payloadByte p 0).toNat % 16

/-- The packet's bytes are all there and its CRC matches (R173, R174). -/
def packetIntact (w : List Byte) : Bool :=
  decide (windowLength w ≤ Config.packetRoom) && (windowPacket w).length == windowLength w &&
    windowPacket w == withCrc (packetBody (windowPacket w))

/-- A good COMMAND packet: the whole of it, and its fields. -/
structure CommandPacket where
  distance : Nat
  tag      : Byte
  code     : Byte
  payload  : List Byte
  packet   : List Byte
  deriving DecidableEq, Repr

/-- The COMMAND packet of an outbound window; none when the packet is bad (R132, R173). -/
def readCommand (w : List Byte) : Option CommandPacket :=
  let p := windowPacket w
  let n := (payloadByte p 3).toNat
  if packetIntact w && packetKind p == 1 && decide (n ≤ Config.payloadLimit) && windowLength w == 6 + n &&
      (decide (packetHop p ≤ 7) || packetHop p == 15) then
    some { distance := packetHop p, tag := payloadByte p 1, code := payloadByte p 2, payload := (p.drop 4).take n, packet := p }
  else none

/-- The packet passed on toward the room with its distance lowered by 1 and a new CRC (R132). -/
def CommandPacket.lowered (c : CommandPacket) : List Byte :=
  match packetBody c.packet with
  | [] => []
  | b :: rest => withCrc ((b - 1) :: rest)

/-- The payload length a NOTICE of this kind has (11.5); none when the code names no kind (log 17). -/
def noticePayload (kind : Byte) : Option Nat :=
  if kind = 1 then some 5 else if kind = 2 then some 3 else if kind = 3 then some 1 else none

/-- The size of an inbound packet is one its kind and its length fields allow (R136, 11.2). -/
def inboundSizeGood (p : List Byte) : Bool :=
  if packetKind p = 2 then
    decide ((payloadByte p 4).toNat ≤ Config.payloadLimit) && p.length == 7 + (payloadByte p 4).toNat
  else if packetKind p = 3 then
    let status := (payloadByte p 3).toNat % 4
    (decide (status ≤ 1) && p.length == 200) || (status == 2 && p.length == 8)
  else if packetKind p = 4 then
    noticePayload (payloadByte p 1) == some (payloadByte p 2).toNat && p.length == 5 + (payloadByte p 2).toNat
  else false

/-- The packet of an inbound window as it enters the forward FIFO, its origin raised by 1 and its CRC left off; none when the packet is
bad (R136, R173). -/
def readInbound (w : List Byte) : Option (List Byte) :=
  let p := windowPacket w
  if packetIntact w && inboundSizeGood p && decide (packetHop p < 7) then
    match packetBody p with
    | [] => none
    | b :: rest => some ((b + 1) :: rest)
  else none

/-! ### Link blocks (11.1) -/

/-- The sync pattern. -/
def syncBytes : List Byte := [0xA5, 0x3C, 0x96]

/-- The flags byte the part sends: filler bit 7, control-present bit 6, the rest 0. -/
def sentFlags (filler present : Bool) : Byte := byteOf ((if filler then 0x80 else 0) + (if present then 0x40 else 0))

/-- The filler flag of a received flags byte. -/
def fillerFlag (flags : Byte) : Bool := flags.getLsbD 7

/-- The control-present flag of a received flags byte. -/
def presentFlag (flags : Byte) : Bool := flags.getLsbD 6

/-- A link block in its bytes, as transmitted. -/
def LinkBlock.bytes (b : LinkBlock) : List Byte :=
  withCrc (syncBytes ++ [b.seq, sentFlags b.filler b.packet.isSome]) ++ b.slots.flatMap slotBytes ++ windowOf b.packet

/-- A link block as it stands on the line, bit by bit (R172). The idle line after it has no content in the spec. -/
def LinkBlock.line (b : LinkBlock) : List Bool := lineBits b.bytes

/-- `n` slots read from their bytes, 192 each. -/
def slotsOf : Nat → List Byte → List Slot
  | 0, _ => []
  | n + 1, bytes => samplesOf (bytes.take 192) :: slotsOf n (bytes.drop 192)

/-- The port receiver finds the sync pattern (R125). -/
def syncFound (bytes : List Byte) : Bool := bytes.take 3 == syncBytes

/-- The header is good: the CRC of bytes 0 to 4 equals bytes 5 and 6 (R173). -/
def headerGood (bytes : List Byte) : Bool := bytes.take 7 == withCrc (bytes.take 5)

/-- What the core port's receiver makes of the bytes of an outbound block: an arrival, good or bad, or none where the sync pattern is
not found (R125, R173). -/
def receiveOutbound (bytes : List Byte) : Option Instr :=
  let slots := slotsOf Config.outSlots (bytes.drop 7)
  if syncFound bytes then
    if headerGood bytes then
      some (.outboundGoodArrival (payloadByte bytes 3) (payloadByte bytes 4) slots ((bytes.drop 3079).take 212))
    else some (.outboundBadArrival slots)
  else none

/-- What the room port's receiver makes of the bytes of an inbound block (R125, R173). What comes between its channel blocks is not of the
block, and none is put here (log 30). -/
def receiveInbound (bytes : List Byte) : Option Instr :=
  let slots := slotsOf Config.inSlots (bytes.drop 7)
  if syncFound bytes then
    if headerGood bytes then
      some (.inboundGoodArrival (payloadByte bytes 3) (payloadByte bytes 4) slots ((bytes.drop 6151).take 212) [])
    else some (.inboundBadArrival slots [])
  else none

/-- What the core port's receiver makes of the bits of an outbound block, from its first bit on (R125, R172). -/
def receiveOutboundLine (bits : List Bool) : Option Instr := receiveOutbound (lineBytes bits)

/-- What the room port's receiver makes of the bits of an inbound block, from its first bit on (R125, R172). -/
def receiveInboundLine (bits : List Bool) : Option Instr := receiveInbound (lineBytes bits)

end Sys2Proof.Machine
end

