-- ==== Sys2Proof/Machine/Flags.lean ====
section
/-! DEFINITION. The exact arithmetic of the part: rounding, energies, comparisons of energies in decibels, levels, gains, and the flags and states the part computes from them (spec/00 section 5, R47, R53, R71, R97, R101, R118, R119, R121). A comparison with a power of ten is made exactly on whole numbers: a is at least b times 10^(k/r) when a^r is at least b^r times 10^k. -/

namespace Sys2Proof.Machine

/-! ### Rounding and limiting -/

/-- A quotient rounded to the nearest whole number, halfway cases away from zero (R45, R52, R57, R118). -/
def roundDiv (num : Int) (den : Nat) : Int :=
  if 0 ≤ num then (2 * num + den) / (2 * den) else -((2 * -num + den) / (2 * den))

/-- A value limited to full scale of its sign, as a 24-bit code. -/
def limit24 (v : Int) : Sample := BitVec.ofInt 24 (max (-8388608) (min 8388607 v))

/-- The values of some samples, in units of the 24-bit code. -/
def values (b : Slot) : List Int := b.map BitVec.toInt

/-- The sum of products of two runs of values, as far as the shorter one goes. -/
def dot : List Int → List Int → Int
  | x :: xs, y :: ys => x * y + dot xs ys
  | _, _ => 0

/-! ### Energies and levels -/

/-- The sum of the squares of some samples, in squared codes. A block's energy is this over 64. -/
def squareSum : Slot → Nat
  | [] => 0
  | x :: xs => x.toInt.natAbs ^ 2 + squareSum xs

/-- The sum of squares of 64 samples at 0 dBFS, the energy of a full-scale sine: 64 times half of the square of 2^23 (R47, R55). -/
def fullSine : Nat := 2 ^ 51

/-- Exactly whether `a` is at least `b` times 10^(k/root). With root 10 the number k counts dB, with 20 steps of 0.5 dB, with 40 steps
of 0.25 dB. -/
def ratioAtLeast (root a b : Nat) (k : Int) : Bool := decide (b ^ root * 10 ^ k.toNat ≤ a ^ root * 10 ^ (-k).toNat)

/-- How many times `acc` must be multiplied by 10 to reach `target`, at most `limit` times. -/
def stepsUp (target : Nat) : Nat → Nat → Nat
  | 0, _ => 0
  | limit + 1, acc => if target ≤ acc then 0 else stepsUp target limit (acc * 10) + 1

/-- How many times `acc` can be multiplied by 10 and still be at most `target`, at most `limit` times. -/
def stepsWithin (target : Nat) : Nat → Nat → Nat
  | 0, _ => 0
  | limit + 1, acc => if acc * 10 ≤ target then stepsWithin target limit (acc * 10) + 1 else 0

/-- The level of a sum of squares against a reference sum, in dB, rounded down to a whole dB and limited to -120 to 0 (R71). -/
def wholeLevel (sum reference : Nat) : Int := -(stepsUp (reference ^ 10) 120 (sum ^ 10) : Int)

/-- The level of a block's sum of squares in steps of 0.25 dB, rounded down and limited to -120 to 0 dBFS (R121). -/
def quarterLevel (sum : Nat) : Int := -(stepsUp (fullSine ^ 40) 480 (sum ^ 40) : Int)

/-- The ERLE of a window: the ratio of the capture sum to the live sum in dB, rounded down and limited to 0 to 60 (R71). -/
def erleOf (capture live : Nat) : Nat :=
  if live = 0 then (if capture = 0 then 0 else 60) else stepsWithin (capture ^ 10) 60 (live ^ 10)

/-- A block's energy against a threshold in steps of 0.5 dBFS: at least the threshold (R47). -/
def reachesThreshold (b : Slot) (threshold : Int) : Bool := ratioAtLeast 20 (squareSum b) fullSine threshold

/-! ### Roots, gains and noise levels -/

/-- The largest number below 2^bits (added to `acc`) that passes a test which holds up to some number and fails beyond it. -/
def largestPassing (test : Nat → Bool) : Nat → Nat → Nat
  | 0, acc => acc
  | k + 1, acc => if test (acc + 2 ^ k) then largestPassing test k (acc + 2 ^ k) else largestPassing test k acc

/-- The linear gain of a current gain in steps of 0.5 dB, in units of 2^-23: 10^(gain/40) rounded to the nearest 24-bit fraction, and
exactly 1 at 0 dB (R118). The root found is the value in units of 2^-24 rounded down, so half of it rounded up is the nearest. -/
def linearGain (gain : Int) : Nat :=
  if gain = 0 then 8388608
  else (largestPassing (fun r => decide (r ^ 40 * 10 ^ (-gain).toNat ≤ 2 ^ 960)) 25 0 + 1) / 2

/-- The size of one noise sample in units of 2^-46, rounded down: the amplitude whose square is the energy at the fill level (in steps
of 0.25 dB), times (1 - linear gain) (R119). Its 80th power is rational, which makes the root exact. -/
def noiseSize (gain : Nat) (fillLevel : Int) : Nat :=
  largestPassing
    (fun y => decide (y ^ 80 * 2 ^ 40 * 10 ^ (-fillLevel).toNat ≤ (8388608 * (8388608 - gain)) ^ 80 * 10 ^ fillLevel.toNat)) 48 0

/-- An output sample: the residual times the linear gain, with a noise sample of this size and sign added, rounded to the nearest code
and limited (R118, R119). The noise size is never a whole number of its units, so no sum lies halfway between two codes. -/
def filledSample (residual : Sample) (gain size : Nat) (positive : Bool) : Sample :=
  let product := residual.toInt * gain
  limit24 ((product + 4194304 + (if positive then (size : Int) else -(size + 1 : Int))) / 8388608)

/-- An output sample without noise (R118). -/
def scaledSample (residual : Sample) (gain : Nat) : Sample := limit24 (roundDiv (residual.toInt * gain) 8388608)

/-! ### The noise generator (R120) -/

/-- The shift register's move to the next position: every bit moves up one place and bit 1 takes the exclusive-or of bits 23 and 18.
Bit k of the spec is bit k - 1 here. -/
def noiseNext (r : BitVec 23) : BitVec 23 := (r <<< 1) ^^^ (if r.getLsbD 22 ^^ r.getLsbD 17 then 1 else 0)

/-- The register moved on by `n` positions. -/
def noiseAfter : Nat → BitVec 23 → BitVec 23
  | 0, r => r
  | n + 1, r => noiseAfter n (noiseNext r)

/-- A linear map of the register, given by what it makes of each single bit, applied from bit `i` on. -/
def bitMapApply : List (BitVec 23) → Nat → BitVec 23 → BitVec 23
  | [], _, _ => 0
  | column :: columns, i, r => (if r.getLsbD i then column else 0) ^^^ bitMapApply columns (i + 1) r

/-- The move to the next position as such a map. -/
def noiseMap : List (BitVec 23) := (List.range 23).map fun i => noiseNext (1#23 <<< i)

/-- The register moved on by `n` applications of a map, by repeated squaring of the map; `bits` is how many bits `n` has. -/
def noiseJump : Nat → Nat → List (BitVec 23) → BitVec 23 → BitVec 23
  | 0, _, _, r => r
  | bits + 1, n, m, r => noiseJump bits (n / 2) (m.map (bitMapApply m 0)) (if n % 2 = 1 then bitMapApply m 0 r else r)

/-- The register at a position: all ones at position 0, moved on. -/
def noiseRegister (position : Nat) : BitVec 23 := noiseJump 23 position noiseMap (BitVec.allOnes 23)

/-- Whether each of the next `n` samples is +1 (bit 23 set) or -1, from a register on. -/
def noiseSigns : Nat → BitVec 23 → List Bool
  | 0, _ => []
  | n + 1, r => r.getLsbD 22 :: noiseSigns n (noiseNext r)

/-! ### Flags and states of a channel block -/

/-- The block is clipped: a sample is at positive or negative full scale (R33). -/
def isClipped (b : Slot) : Bool := b.any fun x => x == 0x7FFFFF#24 || x == 0x800000#24

/-- The raw near indication (R97): the residual energy is at least the floor estimate raised by the near threshold, and at least the
estimate energy lowered by the echo margin. -/
def rawNear (d : DetectorState) (floor : Int) (residual estimate : Nat) : Bool :=
  ratioAtLeast 40 residual fullSine (floor + 2 * (d.nearThreshold : Int)) && ratioAtLeast 20 residual estimate (-(d.echoMargin : Int))

/-- The detector counters after a block (R98). -/
def DetectorState.update (d : DetectorState) (raw : Bool) : DetectorState :=
  match d.nearActive, raw with
  | false, true =>
    if d.enterDebounce ≤ d.debounce + 1 then { d with nearActive := true, hangover := d.nearHangover, debounce := 0 }
    else { d with debounce := d.debounce + 1 }
  | false, false => { d with debounce := 0 }
  | true, true => { d with hangover := d.nearHangover }
  | true, false => { d with hangover := d.hangover - 1, nearActive := decide (1 < d.hangover) }

/-- The talk state (R101). -/
def talkState : Bool → Bool → TalkState
  | false, false => .quiet
  | true, false => .far
  | false, true => .near
  | true, true => .double

/-- Flag N of a talk state. -/
def TalkState.isNear : TalkState → Bool
  | .near => true
  | .double => true
  | .quiet => false
  | .far => false

/-- Flag D of a talk state. -/
def TalkState.isDouble : TalkState → Bool
  | .double => true
  | .near => false
  | .quiet => false
  | .far => false

/-- An entry's mask and match fit a block's flags: each flag of the mask is set exactly when it is in the match (R103). -/
def DecisionEntry.fits (e : DecisionEntry) (flags : TalkFlags) : Bool := e.valid && (flags.bits &&& e.mask == e.want &&& e.mask)

/-- The outcome of the decision table for one channel block. -/
structure Action where
  adapt     : Bool
  stepScale : Nat
  target    : Nat
  fill      : Bool
  deriving DecidableEq, Repr

/-- The default action (R105). -/
def defaultAction : Action := { adapt := false, stepScale := 0, target := 0, fill := false }

/-- An entry's action. -/
def DecisionEntry.action (e : DecisionEntry) : Action :=
  { adapt := e.adapt, stepScale := e.stepScale, target := e.target, fill := e.fill }

/-- The action of the first entry that fits, reading from entry `i` on, and the indexes of the entries read with a parity mismatch, each
of which counts as not valid (R105, R106). -/
def matchEntries (flags : TalkFlags) : Nat → List DecisionEntry → Action × List Nat
  | _, [] => (defaultAction, [])
  | i, e :: rest =>
    if e.parityBad then
      let r := matchEntries flags (i + 1) rest
      (r.1, i :: r.2)
    else if e.fits flags then (e.action, [])
    else matchEntries flags (i + 1) rest

end Sys2Proof.Machine
end

