-- ==== Sys2Proof/Machine/Signal.lean ====
section
/-! DEFINITION. The signal arithmetic of the part: the dither modulator (R45), the aligned reference samples (R50), estimates and residuals (R51, R52), the adaptation of a coefficient set (R55 to R57) and the suppressor's gain, floor and output (R117 to R121). -/

namespace Sys2Proof.Machine

/-! ### The dither modulator (R45, R46)

The coefficient is the tangent of half the deviation, rounded to the nearest 24-bit fraction. It is computed in fixed point with 96 bits
after the point; none of its 5625 values lies within 2^-35 of halfway between two fractions (log 14). -/

/-- One, in fixed point. -/
def fixOne : Int := 2 ^ 96

/-- The number pi in fixed point. -/
def fixPi : Int := 248902613312231085230521944622

/-- The sum of an alternating power series in fixed point: from the term `t` of power `n` on, each next term being the last times the
square `x2` over (n+1)(n+2), with its sign turned. -/
def fixSeries (x2 : Int) : Nat → Nat → Int → Int
  | 0, _, _ => 0
  | terms + 1, n, t => t + fixSeries x2 terms (n + 2) (-(t * x2 / fixOne) / ((n + 1) * (n + 2)))

/-- Sine in fixed point, for angles within a half turn. -/
def fixSin (x : Int) : Int := fixSeries (x * x / fixOne) 30 1 x

/-- Cosine in fixed point, for angles within a half turn. -/
def fixCos (x : Int) : Int := fixSeries (x * x / fixOne) 30 0 fixOne

/-- The modulator's coefficient for a depth and a sweep position, in units of 2^-23: the deviation is depth times 10 degrees times the
sine of 2 pi position / 1875 (R45). -/
def ditherCoefficient (depth sweep : Nat) : Int :=
  let turn : Int := if sweep ≤ 937 then sweep else (sweep : Int) - 1875
  let halfDeviation := fixPi * depth * fixSin (2 * fixPi * turn / 1875) / (36 * fixOne)
  roundDiv (8388608 * fixSin halfDeviation) (fixCos halfDeviation).toNat

/-- The all-pass section over some samples: output n is a times input n, plus input n-1, less a times output n-1, rounded and limited;
the memory holds the input and the output before the first (R45). -/
def allPass (a : Int) : Sample → Sample → Slot → Slot
  | _, _, [] => []
  | lastIn, lastOut, x :: xs =>
    let y := limit24 (roundDiv (a * x.toInt + lastIn.toInt * 8388608 - a * lastOut.toInt) 8388608)
    y :: allPass a x y xs

/-- The block a modulator makes of a slot at a depth, and the modulator after it (R45, R46). -/
def Modulator.apply (m : Modulator) (depth : Nat) (x : Slot) : Slot × Modulator :=
  let y := allPass (ditherCoefficient depth m.sweep) m.lastIn m.lastOut x
  (y, { sweep := (m.sweep + 1) % 1875, lastIn := x.getLastD 0, lastOut := y.getLastD 0 })

/-- The modulator after a silent append: the position advances and the memory is cleared (R46). -/
def Modulator.skipBlock (m : Modulator) : Modulator := { sweep := (m.sweep + 1) % 1875, lastIn := 0, lastOut := 0 }

/-! ### Aligned reference samples (R50) -/

/-- The block of an age in a history; an age beyond it reads as zero (R50). -/
def historyBlock (history : List Slot) (age : Nat) : Slot := history.getD age silence

/-- The 128 values of the older neighbour and of the aligned block of an age, oldest first: value 64 + n - j of this run is the aligned
reference sample for output sample n and tap j. -/
def alignedRun (history : List Slot) (age : Nat) : List Int :=
  values (historyBlock history (age + 1)) ++ values (historyBlock history age)

/-- The aligned reference samples for output sample n, tap 0 first. -/
def alignedForSample (run : List Int) (n : Nat) : List Int := (run.take (65 + n)).reverse

/-- The aligned reference samples for tap j, output sample 0 first. -/
def alignedForTap (run : List Int) (j : Nat) : List Int := run.drop (64 - j)

/-- A history with one more block at age 0: every other age rises by one and age 511 is discarded (R41). -/
def appendBlock (history : List Slot) (b : Slot) : List Slot := (b :: history).take Config.historyBlocks

/-! ### Estimates and residuals (R51, R52) -/

/-- What one partition adds to an estimate, for the output samples 0 to 63, in units of 2^-46. -/
def partitionEstimate (taps : Slot) (run : List Int) : List Int :=
  (List.range 64).map fun n => dot (values taps) (alignedForSample run n)

/-- The sum of two runs of 64 values. -/
def addRuns (xs ys : List Int) : List Int := List.zipWith (· + ·) xs ys

/-- No estimate. -/
def zeroRun : List Int := List.replicate 64 0

/-- A path's estimate from the taps read at its chain indices, from index `k` on (R51). -/
def pathEstimate (history : List Slot) (bulk : Nat) : Nat → List Slot → List Int
  | _, [] => zeroRun
  | k, taps :: rest => addRuns (partitionEstimate taps (alignedRun history (bulk + k))) (pathEstimate history bulk (k + 1) rest)

/-- The summed estimate as it is handed on: rounded and limited (R52). -/
def estimateSamples (sum : List Int) : Slot := sum.map fun e => limit24 (roundDiv e 8388608)

/-- A residual: capture less the summed estimate, rounded and limited (R52). -/
def residualSamples (capture : Slot) (sum : List Int) : Slot :=
  List.zipWith (fun (x : Sample) e => limit24 (roundDiv (x.toInt * 8388608 - e) 8388608)) capture sum

/-! ### Background adaptation (R55 to R57) -/

/-- The span power: the sum of squares of the history blocks of ages `bulk` to `bulk + length - 1`, in squared codes (R55). -/
def spanPower (history : List Slot) (bulk : Nat) : Nat → Nat
  | 0 => 0
  | length + 1 => spanPower history bulk length + squareSum (historyBlock history (bulk + length))

/-- The divisor of a path with the step's power of two in it, in units of 2^-46 over 10^7: the span power plus 64 length times half of
10^-7, times 2^exponent (R55, R56). -/
def adaptDivisor (history : List Slot) (bulk length exponent : Nat) : Nat :=
  2 ^ exponent * (10000000 * spanPower history bulk length + 32 * length * 2 ^ 46)

/-- One tap's move: the sum over the output samples of background residual times aligned reference sample, times the step, over the
divisor, added to the tap, rounded and limited (R57). -/
def movedTap (divisor : Nat) (residual run : List Int) (tap : Sample) (j : Nat) : Sample :=
  limit24 (roundDiv (tap.toInt * divisor + 83886080000000 * dot residual (alignedForTap run j)) divisor)

/-- The taps of one partition after its move. -/
def movedTaps (divisor : Nat) (residual run : List Int) (taps : Slot) : Slot := taps.mapIdx fun j tap => movedTap divisor residual run tap j

/-! ### Suppression and fill (R117 to R121) -/

/-- The current gain after its move toward the target gain, in steps of 0.5 dB (R117). -/
def SuppressorState.movedGain (p : SuppressorState) (target : Nat) : Int :=
  let goal : Int := -(2 * (target : Int))
  if goal < p.gain then max goal (p.gain - p.attack) else if p.gain < goal then min goal (p.gain + p.release) else p.gain

/-- The floor estimate after a block of this residual level, in steps of 0.25 dB (R121). -/
def floorAfter (floor level : Int) : Int := if floor + 1 < level then floor + 1 else level

/-- The block adds comfort noise: fill ON and a gain below -6 dB (R119). -/
def addsNoise (fill : Bool) (gain : Int) : Bool := fill && decide (gain < -12)

/-- The output samples of stage 6 (R118, R119, R120). -/
def suppressedSamples (residual : Slot) (gain : Int) (fill : Bool) (fillLevel : Int) (position : Nat) : Slot :=
  let g := linearGain gain
  if addsNoise fill gain then
    List.zipWith (fun x positive => filledSample x g (noiseSize g fillLevel) positive) residual (noiseSigns 64 (noiseRegister position))
  else residual.map fun x => scaledSample x g

/-- The suppressor after stage 6 of a block: floor, gain and noise position (R116, R117, R120, R121). -/
def SuppressorState.update (p : SuppressorState) (near : Bool) (residualEnergy : Nat) (target : Nat) (fill : Bool) : SuppressorState :=
  let gain := p.movedGain target
  { p with
    floor := if near then p.floor else floorAfter p.floor (quarterLevel residualEnergy)
    gain := gain
    noisePos := if addsNoise fill gain then (p.noisePos + 64) % 8388607 else p.noisePos }

/-- The fill level: the floor estimate plus the fill level offset, in steps of 0.25 dB (R119). -/
def SuppressorState.fillLevel (p : SuppressorState) : Int := p.floor + 2 * p.offset

end Sys2Proof.Machine
end

