-- ==== Sys2Proof/Machine/Ops.lean ====
section
/-! DEFINITION. The named operations over the state: one setter for each block of it, the records by number, the partition store and the pool, raising a fault and producing a notice (R155, R166, R167), answering a command (R144, R145), the comparison state reset (R68), promotions (R74), the end of a readback (R151, R152), and the block period's mark. -/

namespace Sys2Proof.Machine

/-! ### One setter per block -/

def State.setPorts (s : State) (x : Ports) : State := { s with ports := x }
def State.setModulators (s : State) (x : List Modulator) : State := { s with modulators := x }
def State.setReferences (s : State) (x : List Reference) : State := { s with references := x }
def State.setHistories (s : State) (x : List (List Slot)) : State := { s with histories := x }
def State.setChannels (s : State) (x : List Channel) : State := { s with channels := x }
def State.setPaths (s : State) (x : List PathRecord) : State := { s with paths := x }
def State.setPool (s : State) (x : Pool) : State := { s with pool := x }
def State.setComparator (s : State) (x : ComparatorParams) : State := { s with comparator := x }
def State.setSeed (s : State) (x : SeedEngine) : State := { s with seed := x }
def State.setDecision (s : State) (x : Decision) : State := { s with decision := x }
def State.setControl (s : State) (x : Control) : State := { s with control := x }
def State.setUnit (s : State) (x : FaultUnit) : State := { s with unit := x }
def State.setPending (s : State) (x : List Instr) : State := { s with pending := x }

/-! ### The records by number -/

def State.channel (s : State) (c : Nat) : Channel := s.channels.getD c (Channel.initial c)
def State.path (s : State) (p : Nat) : PathRecord := s.paths.getD p PathRecord.unused
def State.reference (s : State) (r : Nat) : Reference := s.references.getD r Reference.initial
def State.modulator (s : State) (r : Nat) : Modulator := s.modulators.getD r Modulator.initial
def State.history (s : State) (r : Nat) : List Slot := s.histories.getD r silentHistory

def State.putChannel (s : State) (c : Nat) (x : Channel) : State := s.setChannels (s.channels.set c x)
def State.putPath (s : State) (p : Nat) (x : PathRecord) : State := s.setPaths (s.paths.set p x)
def State.putReference (s : State) (r : Nat) (x : Reference) : State := s.setReferences (s.references.set r x)
def State.putModulator (s : State) (r : Nat) (x : Modulator) : State := s.setModulators (s.modulators.set r x)
def State.putHistory (s : State) (r : Nat) (x : List Slot) : State := s.setHistories (s.histories.set r x)

/-- A channel's comparison state replaced. -/
def State.putComparison (s : State) (c : Nat) (m : ComparisonState) : State := s.putChannel c { s.channel c with comparison := m }

/-- The history of a path's reference; a path without one has a silent history. -/
def State.pathHistory (s : State) (r : PathRecord) : List Slot :=
  match r.reference with
  | some k => s.history k
  | none => silentHistory

/-! ### The partition store and the pool (R1 to R5) -/

/-- What a partition number reads as. -/
def PartitionStore.read : PartitionStore → Nat → Partition
  | [], _ => Partition.zero
  | (n, p) :: rest, k => if n = k then p else PartitionStore.read rest k

/-- A partition written, the canonical form kept. -/
def PartitionStore.write : PartitionStore → Nat → Partition → PartitionStore
  | [], k, x => if x = Partition.zero then [] else [(k, x)]
  | (n, p) :: rest, k, x =>
    if k < n then (if x = Partition.zero then (n, p) :: rest else (k, x) :: (n, p) :: rest)
    else if k = n then (if x = Partition.zero then rest else (k, x) :: rest)
    else (n, p) :: PartitionStore.write rest k x

/-- The canonical form: numbers rising from a bound on, and no entry equal to what an unlisted number reads as. -/
def PartitionStore.wfFrom : Nat → PartitionStore → Bool
  | _, [] => true
  | low, (n, p) :: rest => decide (low ≤ n) && decide (p ≠ Partition.zero) && PartitionStore.wfFrom (n + 1) rest

/-- The canonical form of the stored partitions. -/
def PartitionStore.wf (m : PartitionStore) : Bool := PartitionStore.wfFrom 0 m

/-- One set of one partition as stored. -/
def State.coeffs (s : State) (partition : Nat) (set : SetId) : CoeffSet := (s.pool.cells.read partition).get set

/-- Both sets of a partition written. -/
def State.writePartition (s : State) (partition : Nat) (x : Partition) : State :=
  s.setPool { s.pool with cells := s.pool.cells.write partition x }

/-- One set of a partition written, with fresh parity (R1). -/
def State.writeSet (s : State) (partition : Nat) (set : SetId) (taps : Slot) : State :=
  s.writePartition partition ((s.pool.cells.read partition).put set { taps := taps, upset := false })

/-- The partition at a chain index of a path (R10). -/
def PathRecord.partitionAt (r : PathRecord) (k : Nat) : Option Nat := r.chain[k]?

/-- The free count (R3). -/
def Pool.freeCount (p : Pool) : Nat := p.free.length

/-- The first `n` partitions detached from the head of the free list (R4). -/
def State.detachFree (s : State) (n : Nat) : State := s.setPool { s.pool with free := s.pool.free.drop n }

/-- Partitions returned at the tail of the free list, in order (R5). -/
def State.returnFree (s : State) (run : List Nat) : State := s.setPool { s.pool with free := s.pool.free ++ run }

/-- The partition that follows one in a chain. -/
def nextInChain : List Nat → Nat → Option Nat
  | a :: b :: rest, p => if a = p then some b else nextInChain (b :: rest) p
  | _, _ => none

/-- A partition's next link (R1, R2): the partition that follows it in the free list or in the chain it lies in; none for the last one. -/
def State.nextLink (s : State) (p : Nat) : Option Nat :=
  (nextInChain s.pool.free p).or (s.paths.findSome? fun r => nextInChain r.chain p)

/-- The lowest-numbered UNUSED path record (R14). -/
def State.lowestUnused (s : State) : Option Nat := (List.range Config.numPaths).find? fun p => (s.path p).state == .unused

/-! ### Operating state, notices and raises -/

/-- References are dithered in this operating state (R45). -/
def OpState.dithers : OpState → Bool
  | .run => true
  | .safe => true
  | .offline => false
  | .bypass => false

/-- A new operating state. Entry to RUN or SAFE from a state without dither resumes the modulators with their memory cleared (R46). -/
def State.changeOpState (s : State) (new : OpState) : State :=
  let s1 := if new.dithers && !s.unit.opState.dithers then s.setModulators (s.modulators.map Modulator.cleared) else s
  s1.setUnit { s1.unit with opState := new }

/-- The class is masked. -/
def FaultUnit.masked (u : FaultUnit) (c : FaultClass) : Bool := u.masks.getLsbD c.code

/-- The class is grave. -/
def FaultUnit.grave (u : FaultUnit) (c : FaultClass) : Bool := u.severities.getLsbD c.code

/-- The class's status is set. -/
def FaultUnit.isSet (u : FaultUnit) (c : FaultClass) : Bool := u.status.getLsbD c.code

/-- The class's status becomes set. -/
def State.setStatus (s : State) (c : FaultClass) : State := s.setUnit { s.unit with status := s.unit.status ||| c.bit }

/-- What an unmasked raise does to the first-fault record and the multiple flag (R167). -/
def State.noteRaise (s : State) (c : FaultClass) (subject : Subject) (tag : Option Byte) : State :=
  match s.unit.record with
  | none => s.setUnit { s.unit with record := some { cls := c, subject := subject, tag := tag, seq := s.ports.lastSeq } }
  | some _ => s.setUnit { s.unit with multiple := true }

/-- The part works in RUN or BYPASS, from which a grave raise takes it to SAFE (R166). -/
def OpState.working : OpState → Bool
  | .run => true
  | .bypass => true
  | .offline => false
  | .safe => false

/-- NOTICE_OVERFLOW raised for a notice discarded because the queue is full (R155, R166). Its own FAULT notice would find the same full
queue and is discarded without a further raise. If the raise enters SAFE, the STATE notice finds the full queue too; that discard is one
more raise, which finds the status set. -/
def State.raiseOverflow (s : State) (kind : NoticeKind) (tag : Option Byte) : State :=
  let c := FaultClass.noticeOverflow
  if s.unit.masked c then s.setStatus c
  else if s.unit.isSet c then s.noteRaise c (.noticeKind kind) tag
  else
    let s1 := (s.setStatus c).noteRaise c (.noticeKind kind) tag
    if s.unit.grave c && s.unit.opState.working then
      let s2 := s1.changeOpState .safe
      if s.control.enableState then s2.noteRaise c (.noticeKind .state) tag else s2
    else s1

/-- A produced notice: appended to the notice queue, or discarded with NOTICE_OVERFLOW when the queue is full (R155). -/
def State.postNotice (s : State) (n : Notice) (tag : Option Byte) : State :=
  if s.control.notices.length < Config.noticeCapacity then s.setControl { s.control with notices := s.control.notices ++ [n] }
  else s.raiseOverflow n.kind tag

/-- A change of operating state other than by a reset, with its STATE notice when the enable is ON (R161). -/
def State.enterState (s : State) (new : OpState) (reason : Reason) (tag : Option Byte) : State :=
  let s1 := s.changeOpState new
  if s1.control.enableState then s1.postNotice (.state new reason s1.unit.cause) tag else s1

/-- A fault raised with its class and subject, in the taking of the command of this tag or outside a command (R166). -/
def State.raise (s : State) (c : FaultClass) (subject : Subject) (tag : Option Byte) : State :=
  if s.unit.masked c then s.setStatus c
  else if s.unit.isSet c then s.noteRaise c subject tag
  else
    let s1 := (s.setStatus c).noteRaise c subject tag
    let s2 := if s1.control.enableFault then s1.postNotice (.fault c subject) tag else s1
    if s.unit.grave c && s2.unit.opState.working then s2.enterState .safe (.fault c) tag else s2

/-- Some faults raised one after another outside a command. -/
def State.raiseAll (s : State) (faults : List (FaultClass × Subject)) : State := faults.foldl (fun s f => s.raise f.1 f.2 none) s

/-- Some unmasked grave status is set (R162, R163). -/
def FaultUnit.graveSet (u : FaultUnit) : Bool := u.status &&& u.severities &&& ~~~u.masks != 0

/-! ### Answering commands (R144, R145) -/

/-- What a command's execution gives: the state, the reply code and the payload of the reply. -/
structure Answer where
  state   : State
  outcome : ReplyCode
  payload : List Byte

/-- A refusal: no state is changed beyond what `s` already has, and the payload is empty (R145). -/
def State.refuse (s : State) (outcome : ReplyCode) : Answer := { state := s, outcome := outcome, payload := [] }

/-- A command carried out, with the payload of its reply. -/
def State.done (s : State) (payload : List Byte) : Answer := { state := s, outcome := .done, payload := payload }

/-- A reply at the tail of the reply queue (R147). -/
def State.pushReply (s : State) (r : Reply) : State := s.setControl { s.control with replies := s.control.replies ++ [r] }

/-- The taking of a consumed command: with a full reply queue it is not executed and REPLY_OVERFLOW is raised; otherwise it is executed and
its reply queued (R144). -/
def State.take (s : State) (code tag : Byte) (execute : State → Answer) : State :=
  if Config.replyCapacity ≤ s.control.replies.length then s.raise .replyOverflow (.tag tag) (some tag)
  else
    let a := execute s
    a.state.pushReply { tag := tag, code := code, outcome := a.outcome, payload := a.payload }

/-- What reaches the part over its ports happens only while the reset pin is not held (R126). -/
def State.whilePortsRun (s : State) (f : State → State) : State := if s.ports.pinHeld then s else f s

/-! ### Parity checks by commands (R13, R25, R27, R30, R35, R36, R39) -/

/-- A command reads a channel's slot and mode: a mismatch raises TABLE_PARITY. -/
def State.checkChannel (s : State) (c : Nat) (tag : Byte) : State :=
  if (s.channel c).parityBad then s.raise .tableParity (.channel c) (some tag) else s

/-- A command reads a reference record: a mismatch raises TABLE_PARITY. -/
def State.checkReference (s : State) (r : Nat) (tag : Byte) : State :=
  if (s.reference r).parityBad then s.raise .tableParity (.reference r) (some tag) else s

/-! ### Comparison state, promotion, reseed (chapter 4) -/

/-- The comparison state reset, which keeps the reseed count and the pending promote (R68). -/
def ComparisonState.cleared (m : ComparisonState) : ComparisonState :=
  { ComparisonState.initial with reseedCount := m.reseedCount, pendingPromote := m.pendingPromote }

/-- The window in progress restarted (R69, R78). -/
def ComparisonState.windowRestarted (m : ComparisonState) : ComparisonState :=
  { m with count := 0, captureSum := 0, liveSum := 0, backgroundSum := 0, farCount := 0, disturbed := false }

/-- A comparison state reset of a channel (R68). -/
def State.resetComparison (s : State) (c : Nat) : State := s.putComparison c (s.channel c).comparison.cleared

/-- A channel's pending promote cleared without being applied (R75). -/
def State.clearPending (s : State) (c : Nat) : State := s.putComparison c { (s.channel c).comparison with pendingPromote := false }

/-- A comparison state reset of a channel that also clears its pending promote (R68's table). -/
def State.resetComparisonFully (s : State) (c : Nat) : State := (s.resetComparison c).clearPending c

/-- Every channel's pending promote cleared without being applied (R91, R157). -/
def State.clearAllPending (s : State) : State :=
  s.setChannels (s.channels.map fun ch => { ch with comparison := { ch.comparison with pendingPromote := false } })

/-- A request at the tail of the seed queue (R84). -/
def State.appendSeed (s : State) (r : SeedRequest) : State := s.setSeed { s.seed with queue := s.seed.queue ++ [r] }

/-- A request over a path's whole chain, nothing done yet. -/
def wholeChain (p : Nat) (kind : SeedKind) (r : PathRecord) : SeedRequest :=
  { path := p, kind := kind, first := 0, count := r.length, done := 0 }

/-- A path becomes SEEDING with a COPY request over its whole chain, its live set flipped or kept (R74, R76). -/
def State.beginCopy (s : State) (flip : Bool) (p : Nat) : State :=
  let r := s.path p
  (s.putPath p { r with live := if flip then r.live.other else r.live, state := .seeding }).appendSeed (wholeChain p .copy r)

/-- Every path of a channel becomes SEEDING with its COPY request, in path-list order (R74, R76). -/
def State.beginCopies (s : State) (flip : Bool) (c : Nat) : State := (s.channel c).paths.foldl (fun s p => s.beginCopy flip p) s

/-- A promotion applied to a channel (R74). -/
def State.applyPromotion (s : State) (c : Nat) : State :=
  let s1 := s.beginCopies true c
  s1.putComparison c
    { (s1.channel c).comparison with promoteStreak := 0, divergenceStreak := 0, reseedCount := 0, pendingPromote := false, disturbed := true }

/-- A reseed applied to a channel (R76, R77). -/
def State.applyReseed (s : State) (c : Nat) : State :=
  let s1 := s.beginCopies false c
  let m := (s1.channel c).comparison
  let rises := m.reseedCount < s.comparator.reseedLimit
  let s2 := s1.putComparison c
    { m with promoteStreak := 0, divergenceStreak := 0, pendingPromote := false,
             reseedCount := if rises then m.reseedCount + 1 else m.reseedCount }
  if rises ∧ m.reseedCount + 1 = s.comparator.reseedLimit then s2.raise .channelUnstable (.channel c) none else s2

/-! ### Readback (chapter 9) -/

/-- A readback of this path is in progress, on either set. -/
def State.readbackOf (s : State) (p : Nat) : Bool :=
  match s.control.streamer with
  | .streaming rb => rb.path == p
  | .idle => false
  | .closing _ => false

/-- A readback of the live set of this path is in progress. -/
def State.liveReadbackOf (s : State) (p : Nat) : Bool :=
  match s.control.streamer with
  | .streaming rb => rb.path == p && rb.set == .live
  | .idle => false
  | .closing _ => false

/-- The streamer's new state. -/
def State.setStreamer (s : State) (x : Streamer) : State := s.setControl { s.control with streamer := x }

/-- The end of a readback: read-held becomes no after a BACKGROUND one, and the owner channel's pending promote is applied if it is set
(R75, R151, R152). So the grant of a LAST packet applies it also where RESET ADAPTATION falls together with the grant and is taken after it,
against R93's word that it is applied in neither order; the command then undoes the promotion (log 36). -/
def State.finishReadback (s : State) (rb : Readback) : State :=
  let s1 := if rb.set = .background then s.putPath rb.path { s.path rb.path with readHeld := false } else s
  match (s1.path rb.path).owner with
  | some c => if (s1.channel c).comparison.pendingPromote then s1.applyPromotion c else s1
  | none => s1

/-- A readback in progress aborted: the streamer holds the ABORTED packet (R152). -/
def State.abortReadback (s : State) : State :=
  match s.control.streamer with
  | .streaming rb => (s.setStreamer (.closing rb)).finishReadback rb
  | .idle => s
  | .closing _ => s

/-! ### The block period's mark (R85, R129, R134) -/

/-- An outbound block period is marked: it grants the seed engine its step, and the room-silence count its advance unless that was taken ahead
of the mark (log 4). A step of the period before that is not taken until then is lost (R85). -/
def State.markPeriod (s : State) : State :=
  let s1 := s.setSeed { s.seed with granted := true }
  if s1.ports.roomEarly then s1.setPorts { s1.ports with roomEarly := false }
  else s1.setPorts { s1.ports with roomMarks := s1.ports.roomMarks + 1 }

end Sys2Proof.Machine
end

