-- ==== Sys2Proof/Machine/Window.lean ====
section
/-! DEFINITION. The set comparator: the evaluation window, its result, the streaks, and what falls due (R69 to R73, R76, R77); the row WINDOW_END. -/

namespace Sys2Proof.Machine

/-- What one channel block adds to the window in progress (R69). -/
structure WindowShare where
  capture    : Nat
  live       : Nat
  background : Nat
  far        : Bool
  disturbed  : Bool
  deriving DecidableEq, Repr

/-- The window in progress with one more block in it (R69). -/
def ComparisonState.accumulate (m : ComparisonState) (x : WindowShare) : ComparisonState :=
  { m with
    count := m.count + 1
    captureSum := m.captureSum + x.capture
    liveSum := m.liveSum + x.live
    backgroundSum := m.backgroundSum + x.background
    farCount := if x.far then m.farCount + 1 else m.farCount
    disturbed := m.disturbed || x.disturbed }

/-- The result of an ended window is NONE (R70). -/
def Channel.windowNone (ch : Channel) (window : Nat) : Bool :=
  ch.frozen || ch.paths.isEmpty || ch.comparison.disturbed || decide (2 * ch.comparison.farCount < window)

/-- The last result from the window's sums (R71). -/
def ComparisonState.withResult (m : ComparisonState) (p : ComparatorParams) : ComparisonState :=
  { m with
    erle := some (erleOf m.captureSum m.liveSum)
    liveLevel := some (wholeLevel m.liveSum (p.window * fullSine))
    backgroundLevel := some (wholeLevel m.backgroundSum (p.window * fullSine))
    flagU := !ratioAtLeast 20 m.captureSum m.liveSum p.threshold
    flagB := decide (m.backgroundSum < m.liveSum) }

/-- The two streaks from the window's sums (R72). -/
def ComparisonState.withStreaks (m : ComparisonState) (p : ComparatorParams) : ComparisonState :=
  if m.liveSum = 0 ∧ m.backgroundSum = 0 then { m with promoteStreak := 0, divergenceStreak := 0 }
  else if ratioAtLeast 20 m.liveSum m.backgroundSum p.promoteMargin then
    { m with promoteStreak := m.promoteStreak + 1, divergenceStreak := 0 }
  else if ratioAtLeast 20 m.backgroundSum m.liveSum p.divergenceMargin then
    { m with promoteStreak := 0, divergenceStreak := m.divergenceStreak + 1 }
  else { m with promoteStreak := 0, divergenceStreak := 0 }

/-- A promotion falls due: applied at once, or deferred while a readback of the live set of a path of the channel is in progress (R73). -/
def State.promotionDue (s : State) (c : Nat) : State :=
  if (s.channel c).paths.any s.liveReadbackOf then
    s.putComparison c { (s.channel c).comparison with pendingPromote := true, promoteStreak := 0, divergenceStreak := 0 }
  else s.applyPromotion c

/-- A taken result: last result, streaks, and the promotion or reseed that falls due (R71 to R73, R76). -/
def State.judgeWindow (s : State) (c : Nat) : State :=
  let m := ((s.channel c).comparison.withResult s.comparator).withStreaks s.comparator
  let s1 := s.putComparison c m
  if s.comparator.promoteCount ≤ m.promoteStreak then s1.promotionDue c
  else if s.comparator.divergenceCount ≤ m.divergenceStreak then s1.applyReseed c
  else s1

/-- The end of a window: its result, and the start of a new window (R69, R70). -/
def State.endWindow (s : State) (c : Nat) : State :=
  let s1 := if (s.channel c).windowNone s.comparator.window then s else s.judgeWindow c
  s1.putComparison c (s1.channel c).comparison.windowRestarted

/-- Stage 7 of a channel block (R69). -/
def State.accumulateWindow (s : State) (c : Nat) (x : WindowShare) : State :=
  let m := (s.channel c).comparison.accumulate x
  let s1 := s.putComparison c m
  if s.comparator.window ≤ m.count then s1.endWindow c else s1

/-- Flag F: a reference named by a path of the channel is ACTIVE (R100). -/
def State.farIndication (s : State) (c : Nat) : Bool :=
  (s.channel c).paths.any fun p =>
    match (s.path p).reference with
    | some r => (s.reference r).active
    | none => false

/-- Flag S: a path of the channel is SEEDING (R102). -/
def State.seedingIn (s : State) (c : Nat) : Bool := (s.channel c).paths.any fun p => (s.path p).state == .seeding

/-- A path of the channel is read-held (R69). -/
def State.heldIn (s : State) (c : Nat) : Bool := (s.channel c).paths.any fun p => (s.path p).readHeld

/-- The channel performs stages 2 to 7 of its blocks: RUN, CANCEL, a slot named, its record read without a mismatch (R32, R48). -/
def State.performsStages (s : State) (c : Nat) : Bool :=
  let ch := s.channel c
  s.unit.opState == .run && ch.mode == .cancel && ch.slot.isSome && !ch.parityBad

/-- WINDOW_END: stage 7 of the block that ends the channel's window, flag F and the disturbance taken from the state the block finds (R69,
R70). The row is this transition alone; it does not come about unless the channel performs stage 7 and this block brings its window count
to W (log 2, log 3). -/
def execWindowEnd (channel capture live background : Nat) (s : State) : Host.Outcome State Fault Refusal :=
  .next <|
    if s.performsStages channel && decide ((s.channel channel).comparison.count + 1 = s.comparator.window) then
      s.accumulateWindow channel
        { capture := capture, live := live, background := background, far := s.farIndication channel,
          disturbed := s.seedingIn channel || s.heldIn channel }
    else s

end Sys2Proof.Machine
end

