-- ==== Sys2Proof/Machine/ChannelBlock.lean ====
section
/-! DEFINITION. The channel block: stages 1 to 7 in their order (R48), what leaves the slot (R31), and the rows CAPTURE_CLIP and NEAR_HANGOVER_EXPIRY. -/

namespace Sys2Proof.Machine

/-! ### Stage 1 (R33, R34) -/

/-- The clip test's effect on the clip run, with the raise at the 32nd clipped block in a row (R33, R34). -/
def State.clipTest (s : State) (c : Nat) (clipped : Bool) : State :=
  let ch := s.channel c
  if clipped then
    if ch.clipRun < Config.clipLimit then
      let s1 := s.putChannel c { ch with clipRun := ch.clipRun + 1 }
      if ch.clipRun + 1 = Config.clipLimit then s1.raise .captureClip (.channel c) none else s1
    else s
  else s.putChannel c { ch with clipRun := 0 }

/-! ### Stage 2: what the block reads, estimates and residuals (R49 to R53, R59) -/

/-- A path as one channel block reads it: its record, its reference's bulk delay and history and whether that record was read without a
mismatch, and both sets of each partition of its chain. -/
structure PathRead where
  id         : Nat
  record     : PathRecord
  refGood    : Bool
  bulk       : Nat
  history    : List Slot
  live       : List CoeffSet
  background : List CoeffSet

/-- The reading of a path (R49). -/
def State.readForBlock (s : State) (p : Nat) : PathRead :=
  let r := s.path p
  let reference := (r.reference.map s.reference).getD Reference.initial
  { id := p, record := r, refGood := !reference.parityBad, bulk := reference.bulk, history := s.pathHistory r,
    live := r.chain.map fun n => s.coeffs n r.live, background := r.chain.map fun n => s.coeffs n r.background }

/-- The mismatches met along a chain from index `k` on, live set before background set (R59). -/
def chainFaults (p : Nat) : Nat → List CoeffSet → List CoeffSet → List (FaultClass × Subject)
  | k, x :: xs, y :: ys =>
    (if x.upset then [(.coeffParity, .path p k)] else []) ++ (if y.upset then [(.coeffParity, .path p k)] else []) ++
      chainFaults p (k + 1) xs ys
  | _, _, _ => []

/-- The mismatches met in reading a path: its reference's record first (R40), then its chain (R59). -/
def PathRead.faults (r : PathRead) : List (FaultClass × Subject) :=
  (match r.record.reference with
    | some k => if r.refGood then [] else [(.tableParity, .reference k)]
    | none => []) ++ chainFaults r.id 0 r.live r.background

/-- The path's live estimate; zero when its reference's record was read with a mismatch (R40, R51). -/
def PathRead.liveEstimate (r : PathRead) : List Int :=
  if r.refGood then pathEstimate r.history r.bulk 0 (r.live.map CoeffSet.read) else zeroRun

/-- The path's background estimate (R40, R51). -/
def PathRead.backgroundEstimate (r : PathRead) : List Int :=
  if r.refGood then pathEstimate r.history r.bulk 0 (r.background.map CoeffSet.read) else zeroRun

/-- What stage 2 hands on: the two residuals, and the four energies as sums of squares (R52, R53). -/
structure Signals where
  live             : Slot
  background       : Slot
  captureEnergy    : Nat
  estimateEnergy   : Nat
  liveEnergy       : Nat
  backgroundEnergy : Nat

/-- Stage 2 on a capture block and the paths read (R51 to R53). -/
def formSignals (capture : Slot) (reads : List PathRead) : Signals :=
  let liveSum := reads.foldl (fun acc r => addRuns acc r.liveEstimate) zeroRun
  let backgroundSum := reads.foldl (fun acc r => addRuns acc r.backgroundEstimate) zeroRun
  let live := residualSamples capture liveSum
  let background := residualSamples capture backgroundSum
  { live := live, background := background, captureEnergy := squareSum capture, estimateEnergy := squareSum (estimateSamples liveSum),
    liveEnergy := squareSum live, backgroundEnergy := squareSum background }

/-! ### Stages 3 and 4 (R97 to R106) -/

/-- The entries of a bank, 0 or 1 (R103). -/
def Decision.bank (d : Decision) (n : Nat) : List DecisionEntry := if n = 0 then d.bank0 else d.bank1

/-- The seven flags of a block (R102). -/
def blockFlags (talk : TalkState) (far clipped seeding : Bool) (m : ComparisonState) : TalkFlags :=
  { f := far, n := talk.isNear, d := talk.isDouble, c := clipped, b := m.flagB, s := seeding, u := m.flagU }

/-! ### Stage 5 (R54 to R58) -/

/-- The taps of a path's background set moved, from chain index `k` on (R57). -/
def State.moveChain (s : State) (set : SetId) (divisor : Nat) (residual : List Int) (history : List Slot) (age : Nat) :
    List Nat → List CoeffSet → State
  | n :: ns, x :: xs =>
    State.moveChain (s.writeSet n set (movedTaps divisor residual (alignedRun history age) x.read)) set divisor residual history (age + 1) ns xs
  | _, _ => s

/-- The path's background set adapts in this block (R54). -/
def PathRead.adapts (r : PathRead) (frozen : Bool) (action : Action) : Bool :=
  action.adapt && r.record.state == .ready && !r.record.readHeld && !frozen && r.refGood

/-- The history whose aligned samples move a path's taps. A path whose span is silent does not move its taps: its aligned samples count as
zero, those of the block behind the span too (R55 over R50 and R57; log 34). -/
def PathRead.movingHistory (r : PathRead) : List Slot := if spanPower r.history r.bulk r.record.length = 0 then [] else r.history

/-- Stage 5 for one path (R54 to R57). -/
def State.adaptPath (s : State) (frozen : Bool) (action : Action) (residual : List Int) (r : PathRead) : State :=
  if r.adapts frozen action then
    s.moveChain r.record.background (adaptDivisor r.history r.bulk r.record.length (r.record.step + action.stepScale)) residual r.movingHistory
      r.bulk r.record.chain r.background
  else s

/-! ### The whole block (R31, R32, R48) -/

/-- Stages 2 to 7 of a CANCEL channel in RUN: the samples placed in its slot, and the state (R48). -/
def State.cancelBlock (s : State) (c : Nat) (clipped : Bool) (capture : Slot) : Slot × State :=
  let ch := s.channel c
  let reads := ch.paths.map s.readForBlock
  let far := s.farIndication c
  let seeding := s.seedingIn c
  let signals := formSignals capture reads
  let detector := ch.detector.update (rawNear ch.detector ch.suppressor.floor signals.liveEnergy signals.estimateEnergy)
  let talk := talkState far detector.nearActive
  let flags := blockFlags talk far clipped seeding ch.comparison
  let matched := matchEntries flags 0 (s.decision.bank s.decision.active)
  let action := matched.1
  let suppressor := ch.suppressor.update flags.n signals.liveEnergy action.target action.fill
  let output := suppressedSamples signals.live suppressor.gain action.fill suppressor.fillLevel ch.suppressor.noisePos
  let s1 := s.raiseAll (reads.flatMap PathRead.faults)
  let s2 := s1.raiseAll (matched.2.map fun e => (.tableParity, .bankEntry s.decision.active e))
  let s3 := reads.foldl (fun s r => s.adaptPath ch.frozen action (values signals.background) r) s2
  let s4 := s3.putChannel c { ch with detector := detector, last := { talk := talk, flags := flags }, suppressor := suppressor }
  let share : WindowShare :=
    { capture := signals.captureEnergy, live := signals.liveEnergy, background := signals.backgroundEnergy, far := far,
      disturbed := seeding || s.heldIn c }
  (output, s4.accumulateWindow c share)

/-- What a channel that stops after stage 1 leaves in its slot (R31). -/
def heldOutput (op : OpState) (action : SafeAction) (mode : ChannelMode) (capture : Slot) : Slot :=
  match op, mode, action with
  | .offline, _, _ => capture
  | .bypass, _, _ => capture
  | .run, .mute, _ => silence
  | .run, .pass, _ => capture
  | .run, .cancel, _ => capture
  | .safe, _, .pass => capture
  | .safe, _, .mute => silence

/-- One channel's block of an inbound link block, under the operating state and safe action that the link block's processing read when it
began (R31, R32, R48, R160). Its capture samples are those of its slot as it arrived, before any processing (R33): a slot that an earlier
channel of the link block has processed, and that a command has since moved to this channel, is taken as it arrived too, and this block's
output is what leaves in it (log 30). -/
def State.channelBlock (op : OpState) (action : SafeAction) (arrived : List Slot) (acc : List Slot × State) (c : Nat) : List Slot × State :=
  let slots := acc.1
  let s := acc.2
  let ch := s.channel c
  if ch.parityBad then (slots, s.raise .tableParity (.channel c) none)
  else
    match ch.slot with
    | none => (slots, s)
    | some k =>
      let capture := arrived.getD k silence
      let clipped := isClipped capture
      let s1 := s.clipTest c clipped
      if op = .run ∧ ch.mode = .cancel then
        let r := s1.cancelBlock c clipped capture
        (slots.set k r.1, r.2)
      else (slots.set k (heldOutput op action ch.mode capture), s1)

/-! ### The rows of single transitions -/

/-- CAPTURE_CLIP: the clip test of a clipped block that finds the channel's run at 31 (R34). The row is this transition alone; it does not
come about unless the channel makes the clip test and its run is 31 (log 2, log 3). -/
def execCaptureClip (channel : Nat) (s : State) : Host.Outcome State Fault Refusal :=
  .next <|
    let ch := s.channel channel
    if ch.slot.isSome && !ch.parityBad && ch.clipRun == 31 then s.clipTest channel true else s

/-- NEAR_HANGOVER_EXPIRY: the detector update of a block without raw near that ends the channel's near hangover (R98). The row is this
transition alone; it does not come about unless the channel performs stage 3, is near-active and has at most 1 on its hangover count
(log 2, log 3). -/
def execNearHangoverExpiry (channel : Nat) (s : State) : Host.Outcome State Fault Refusal :=
  .next <|
    let ch := s.channel channel
    if s.performsStages channel && ch.detector.nearActive && decide (ch.detector.hangover ≤ 1) then
      s.putChannel channel { ch with detector := ch.detector.update false }
    else s

end Sys2Proof.Machine
end

