-- ==== Sys2Proof/Machine/Lock.lean ====
section
/-! DEFINITION. The lock, fault arming and the core-silence count (R139 to R142), leaving OFFLINE (R162), and the rows LOCK_ACQUIRED, LOCK_LOSS and CORE_SILENCE. -/

namespace Sys2Proof.Machine

/-- What the lock sees at an outbound period mark (R139). -/
inductive LockSight where
  | inSequence
  | gap
  | lost
  deriving DecidableEq, Repr

/-- The part leaves OFFLINE: to SAFE when an unmasked grave status is set, to RUN otherwise, with reason LOCKED (R162). -/
def State.leaveOffline (s : State) : State := s.enterState (if s.unit.graveSet then .safe else .run) .locked none

/-- The lock reaches LOCKED: fault arming is set, and the first time since a reset, which finds the part in OFFLINE, the part leaves
OFFLINE (R139, R142, R162). -/
def State.lockReached (s : State) : State :=
  let s1 := s.setPorts { s.ports with lock := .locked, acquire := 16, loss := 0, armed := true }
  if s.unit.opState = .offline then s1.leaveOffline else s1

/-- The lock is lost: UNLOCKED with both counts 0, and CLOCK_UNLOCK when fault arming is set (R140, R142). -/
def State.lockLost (s : State) : State :=
  let s1 := s.setPorts { s.ports with lock := .unlocked, acquire := 0, loss := 0 }
  if s.ports.armed then s1.raise .clockUnlock (.port .core) none else s1

/-- A gap or a bad or missing header in LOCKED: the loss count rises, and at 3 the lock is lost (R139, R140). -/
def State.lossRises (s : State) : State :=
  if Config.lossLimit ≤ s.ports.loss + 1 then s.lockLost else s.setPorts { s.ports with loss := s.ports.loss + 1 }

/-- A good header in sequence in ACQUIRING: the acquisition count rises, and at 16 the lock is reached (R139). -/
def State.acquisitionRises (s : State) : State :=
  if Config.acquireLimit ≤ s.ports.acquire + 1 then s.lockReached else s.setPorts { s.ports with acquire := s.ports.acquire + 1 }

/-- The lock's table (R139). -/
def State.lockSees (s : State) (x : LockSight) : State :=
  match s.ports.lock, x with
  | .unlocked, .inSequence => s.setPorts { s.ports with lock := .acquiring, acquire := 1 }
  | .unlocked, .gap => s.setPorts { s.ports with lock := .acquiring, acquire := 1 }
  | .unlocked, .lost => s
  | .acquiring, .inSequence => s.acquisitionRises
  | .acquiring, .gap => s.setPorts { s.ports with lock := .unlocked, acquire := 0 }
  | .acquiring, .lost => s.setPorts { s.ports with lock := .unlocked, acquire := 0 }
  | .locked, .inSequence => s.setPorts { s.ports with loss := 0 }
  | .locked, .gap => s.lossRises
  | .locked, .lost => s.lossRises

/-- A bad or missing period on the core-silence count: it rises to at most 48, and from 47 to 48 CORE_SILENCE is raised when fault arming
is set (R141, R142). -/
def State.coreSilenceRises (s : State) : State :=
  if s.ports.coreSilence < Config.silenceLimit then
    let s1 := s.setPorts { s.ports with coreSilence := s.ports.coreSilence + 1 }
    if s.ports.coreSilence + 1 = Config.silenceLimit ∧ s.ports.armed then s1.raise .coreSilence (.port .core) none else s1
  else s

/-- LOCK_ACQUIRED: what the lock does at a good header in sequence that is the 16th (R139). The row is this transition alone; it does not
come about unless the lock is ACQUIRING with count 15 and headers arrive, the reset pin not being held (log 2, log 3). -/
def execLockAcquired (s : State) : Host.Outcome State Fault Refusal :=
  .next <| s.whilePortsRun fun s => if s.ports.lock = .acquiring ∧ s.ports.acquire = 15 then s.lockSees .inSequence else s

/-- LOCK_LOSS: what the lock does at the third bad, missing or out-of-sequence header in a row (R140). The row is this transition alone; it
does not come about unless the lock is LOCKED with loss count 2 (log 2, log 3). -/
def execLockLoss (s : State) : Host.Outcome State Fault Refusal :=
  .next (if s.ports.lock = .locked ∧ s.ports.loss = 2 then s.lockSees .lost else s)

/-- CORE_SILENCE: what the core-silence count does at the 48th bad or missing period in a row (R141). The row is this transition alone; it
does not come about unless the timer has started and the count is 47 (log 2, log 3). -/
def execCoreSilence (s : State) : Host.Outcome State Fault Refusal :=
  .next (if s.ports.timerRunning ∧ s.ports.coreSilence = 47 then s.coreSilenceRises else s)

end Sys2Proof.Machine
end

