-- ==== Sys2Proof/Machine/SeedSteps.lean ====
section
/-! DEFINITION. The seed engine (chapter 5): the seed step, the row SEED_STEP, and READ SEED QUEUE. -/

namespace Sys2Proof.Machine

/-- One partition of a request rewritten (R87): CLEAR zeroes both sets; COPY copies the live set into the background set, or writes zeros
and raises COEFF_PARITY when the live set is read with a mismatch. -/
def State.rewritePartition (s : State) (q : SeedRequest) : State :=
  let r := s.path q.path
  match r.partitionAt (q.first + q.done) with
  | none => s
  | some n =>
    match q.kind with
    | .clear => s.writePartition n Partition.zero
    | .copy =>
      let source := s.coeffs n r.live
      let s1 := s.writeSet n r.background source.read
      if source.upset then s1.raise .coeffParity (.path q.path (q.first + q.done)) none else s1

/-- A request completes: it has left the queue, its path becomes READY, and after a CLEAR a PATH_READY notice is produced when PATH notices
are enabled (R88). So a step right after RESET ADAPTATION completes a CLEAR of at most 48 partitions, against R93's word that it leaves the path
records and notices as the command made them (log 35). -/
def State.completeRequest (s : State) (q : SeedRequest) : State :=
  let s1 := s.putPath q.path { s.path q.path with state := .ready }
  if q.kind = .clear ∧ s1.control.enablePath then s1.postNotice (.pathReady q.path) none else s1

/-- The queue's new contents. -/
def State.setQueue (s : State) (q : List SeedRequest) : State := s.setSeed { s.seed with queue := q }

/-- One partition of the budget spent on the request in service (R86); nothing on an empty queue. -/
def State.seedOne (s : State) : State :=
  match s.seed.queue with
  | [] => s
  | q :: rest =>
    let s1 := s.rewritePartition q
    if q.count ≤ q.done + 1 then (s1.setQueue rest).completeRequest q
    else s1.setQueue ({ q with done := q.done + 1 } :: rest)

/-- A budget of partitions spent (R86). What a step has left when a request completes it spends on the next one, so a RELEASE PATH before or
after the completing step can leave that next request with different done counts, against R17's word that the seed queue is the same
(log 33). For the same reason the step after RESET ADAPTATION goes on to later paths, against R93's word that it works on the
lowest-numbered path alone (log 35). -/
def State.seedRun : Nat → State → State
  | 0, s => s
  | n + 1, s => State.seedRun n s.seedOne

/-- The engine steps: LOCKED, and RUN, BYPASS or SAFE (R85, R89). -/
def State.seedAllowed (s : State) : Bool := s.ports.lock == .locked && s.unit.opState != .offline

/-- A period's step at its own time: carried out when the engine steps and lost otherwise (R85, R86). -/
def State.stepSeed (s : State) : State := if s.seedAllowed then State.seedRun Config.seedBudget s else s

/-- The step of the period marked last, on the lock and the operating state as they stand at it (R85, R140). Where none is due, before the first
mark or with the period's step taken, nothing comes about (log 3). -/
def State.takeSeedStep (s : State) : State :=
  if s.seed.granted then (s.setSeed { s.seed with granted := false }).stepSeed else s

/-- SEED_STEP (R85, R86). -/
def execSeedStep (s : State) : Host.Outcome State Fault Refusal := .next s.takeSeedStep

/-- An entry of the seed queue in its eight bytes (11.4). -/
def SeedRequest.bytes (q : SeedRequest) : List Byte := [byteOf q.path, q.kind.byte] ++ bytes2 q.first ++ bytes2 q.count ++ bytes2 q.done

/-- READ SEED QUEUE (R94). -/
def State.takeReadSeedQueue (tag start count : Byte) (s : State) : State :=
  s.take 0x40 tag fun s =>
    if 63 < start.toNat ∨ count.toNat < 1 ∨ 24 < count.toNat then s.refuse .range
    else
      let entries := (s.seed.queue.drop start.toNat).take count.toNat
      s.done ([byteOf s.seed.queue.length, start, byteOf entries.length] ++ entries.flatMap SeedRequest.bytes)

def execReadSeedQueue (tag start count : Byte) (s : State) : Host.Outcome State Fault Refusal :=
  .next (s.whilePortsRun (State.takeReadSeedQueue tag start count))

end Sys2Proof.Machine
end

