-- ==== Sys2Proof/Machine/PoolCommands.lean ====
section
/-! DEFINITION. The seven commands of chapter 1: ALLOCATE PATH, RELEASE PATH, RESIZE PATH, SET STEP, READ PATH RECORD, READ POOL, READ CHAIN. -/

namespace Sys2Proof.Machine

/-- ALLOCATE PATH carried out: the record, the chain, the CLEAR request, the path list, the comparison state (R14). -/
def State.allocate (s : State) (p channel reference length step : Nat) : State :=
  let record : PathRecord :=
    { state := .seeding, owner := some channel, reference := some reference, chain := s.pool.free.take length, live := .a, step := step,
      readHeld := false }
  let s1 := ((s.detachFree length).putPath p record).appendSeed { path := p, kind := .clear, first := 0, count := length, done := 0 }
  (s1.putChannel channel { s1.channel channel with paths := (s1.channel channel).paths ++ [p] }).resetComparisonFully channel

/-- ALLOCATE PATH: the checks of R13 in their order, then R14. -/
def State.takeAllocatePath (tag channel reference : Byte) (length : Half) (step : Byte) (s : State) : State :=
  s.take 0x01 tag fun s =>
    if 23 < channel.toNat ∨ 7 < reference.toNat ∨ length.toNat < 1 ∨ 448 < length.toNat ∨ step.toNat < 1 ∨ 10 < step.toNat then
      s.refuse .range
    else
      let s := s.checkReference reference.toNat tag
      if 512 < (s.reference reference.toNat).bulk + length.toNat then s.refuse .range
      else if (s.reference reference.toNat).slot = none then s.refuse .conflict
      else
        let s := s.checkChannel channel.toNat tag
        if (s.channel channel.toNat).paths.any fun p => (s.path p).reference == some reference.toNat then s.refuse .conflict
        else if Config.pathsPerChannel ≤ (s.channel channel.toNat).paths.length then s.refuse .noResource
        else
          match s.lowestUnused with
          | none => s.refuse .noResource
          | some p =>
            if s.pool.freeCount < length.toNat then s.refuse .noResource
            else (s.allocate p channel.toNat reference.toNat length.toNat step.toNat).done [byteOf p]

def execAllocatePath (tag channel reference : Byte) (length : Half) (step : Byte) (s : State) : Host.Outcome State Fault Refusal :=
  .next (s.whilePortsRun (State.takeAllocatePath tag channel reference length step))

/-- The work in flight on a path ended: its owner's pending promote is cleared, its request leaves the queue, and a readback on it is aborted
(R15). The request behind the head comes into service with its done count of 0 (R82). -/
def State.endWorkOn (s : State) (p : Nat) : State :=
  let s1 := match (s.path p).owner with
    | some c => s.clearPending c
    | none => s
  let s2 := s1.setQueue (s1.seed.queue.filter fun q => q.path != p)
  if s2.readbackOf p then s2.abortReadback else s2

/-- RELEASE PATH carried out (R15, R16). -/
def State.release (s : State) (p : Nat) : State :=
  let s1 := s.endWorkOn p
  let record := s1.path p
  let s2 := (s1.returnFree record.chain).putPath p PathRecord.unused
  match record.owner with
  | some c => (s2.putChannel c { s2.channel c with paths := (s2.channel c).paths.filter (· != p) }).resetComparisonFully c
  | none => s2

/-- RELEASE PATH (R15, R16). -/
def State.takeReleasePath (tag path : Byte) (s : State) : State :=
  s.take 0x02 tag fun s =>
    if 63 < path.toNat then s.refuse .range
    else if (s.path path.toNat).state = .unused then s.refuse .state
    else (s.release path.toNat).done []

def execReleasePath (tag path : Byte) (s : State) : Host.Outcome State Fault Refusal :=
  .next (s.whilePortsRun (State.takeReleasePath tag path))

/-- The comparison state of a path's owner channel reset, its pending promote cleared (R19, R20). -/
def State.resetOwner (s : State) (p : Nat) : State :=
  match (s.path p).owner with
  | some c => s.resetComparisonFully c
  | none => s

/-- Truncation: the last partitions of the chain go to the free tail (R19). -/
def State.truncate (s : State) (p length : Nat) : State :=
  let r := s.path p
  ((s.returnFree (r.chain.drop length)).putPath p { r with chain := r.chain.take length }).resetOwner p

/-- Extension: partitions from the free head are appended after the chain tail, and a CLEAR of the added chain indices is queued (R20). -/
def State.extend (s : State) (p length : Nat) : State :=
  let r := s.path p
  let added := length - r.length
  (((s.detachFree added).putPath p { r with chain := r.chain ++ s.pool.free.take added, state := .seeding }).appendSeed
    { path := p, kind := .clear, first := r.length, count := added, done := 0 }).resetOwner p

/-- RESIZE PATH: the checks of R18 in their order, then R19 or R20. A refused resize changes nothing but its reply (R18) and one to the length
the path has changes nothing (R20); a truncation or extension that is carried out checks the parity of the reference's record first (R35,
log 16). -/
def State.takeResizePath (tag path : Byte) (length : Half) (s : State) : State :=
  s.take 0x03 tag fun s =>
    if 63 < path.toNat then s.refuse .range
    else if (s.path path.toNat).state = .unused then s.refuse .state
    else if (s.path path.toNat).state = .seeding ∨ s.readbackOf path.toNat then s.refuse .busy
    else
      let r := s.path path.toNat
      if length.toNat < 1 ∨ 448 < length.toNat ∨ 512 < ((r.reference.map s.reference).getD Reference.initial).bulk + length.toNat then
        s.refuse .range
      else if s.pool.freeCount < length.toNat - r.length then s.refuse .noResource
      else if length.toNat = r.length then s.done []
      else
        let checked := match r.reference with
          | some k => s.checkReference k tag
          | none => s
        if length.toNat < r.length then (checked.truncate path.toNat length.toNat).done []
        else (checked.extend path.toNat length.toNat).done []

def execResizePath (tag path : Byte) (length : Half) (s : State) : Host.Outcome State Fault Refusal :=
  .next (s.whilePortsRun (State.takeResizePath tag path length))

/-- SET STEP (R21). -/
def State.takeSetStep (tag path step : Byte) (s : State) : State :=
  s.take 0x04 tag fun s =>
    if 63 < path.toNat then s.refuse .range
    else if (s.path path.toNat).state = .unused then s.refuse .state
    else if step.toNat < 1 ∨ 10 < step.toNat then s.refuse .range
    else (s.putPath path.toNat { s.path path.toNat with step := step.toNat }).done []

def execSetStep (tag path step : Byte) (s : State) : Host.Outcome State Fault Refusal :=
  .next (s.whilePortsRun (State.takeSetStep tag path step))

/-- A path record in its thirteen bytes (11.4). -/
def PathRecord.bytes (r : PathRecord) (p : Byte) : List Byte :=
  [p, r.state.byte, byteOrNone r.owner, byteOrNone r.reference] ++ bytes2 r.length ++ partitionBytes r.chain.head? ++
    partitionBytes r.chain.getLast? ++ [r.live.byte, byteOf r.step, byteOfBool r.readHeld]

/-- READ PATH RECORD (R22). -/
def State.takeReadPathRecord (tag path : Byte) (s : State) : State :=
  s.take 0x05 tag fun s =>
    if 63 < path.toNat then s.refuse .range else s.done ((s.path path.toNat).bytes path)

def execReadPathRecord (tag path : Byte) (s : State) : Host.Outcome State Fault Refusal :=
  .next (s.whilePortsRun (State.takeReadPathRecord tag path))

/-- The pool state in its six bytes: free count, free head, free tail (R23, 11.4). -/
def Pool.bytes (p : Pool) : List Byte := bytes2 p.freeCount ++ partitionBytes p.free.head? ++ partitionBytes p.free.getLast?

/-- READ POOL (R23). -/
def State.takeReadPool (tag : Byte) (s : State) : State := s.take 0x06 tag fun s => s.done s.pool.bytes

def execReadPool (tag : Byte) (s : State) : Host.Outcome State Fault Refusal := .next (s.whilePortsRun (State.takeReadPool tag))

/-- The DONE payload of READ CHAIN over a chain (R24, 11.4). -/
def chainBytes (selector : Byte) (start : Half) (count : Nat) (chain : List Nat) : List Byte :=
  let entries := (chain.drop start.toNat).take count
  [selector] ++ halfBytes start ++ [byteOf entries.length] ++ entries.flatMap bytes2

/-- READ CHAIN: of a path, or of the free list under selector FE (R24). -/
def State.takeReadChain (tag selector : Byte) (start : Half) (count : Byte) (s : State) : State :=
  s.take 0x07 tag fun s =>
    if (63 < selector.toNat ∧ selector ≠ 0xFE) ∨ count.toNat < 1 ∨ 96 < count.toNat then s.refuse .range
    else if selector ≠ 0xFE ∧ (s.path selector.toNat).state = .unused then s.refuse .state
    else
      let chain := if selector = 0xFE then s.pool.free else (s.path selector.toNat).chain
      if chain.length ≤ start.toNat then s.refuse .range else s.done (chainBytes selector start count.toNat chain)

def execReadChain (tag selector : Byte) (start : Half) (count : Byte) (s : State) : Host.Outcome State Fault Refusal :=
  .next (s.whilePortsRun (State.takeReadChain tag selector start count))

end Sys2Proof.Machine
end

