-- ==== Sys2Proof/Machine/ChannelCommands.lean ====
section
/-! DEFINITION. The four commands of chapter 2, WRITE CHANNEL, READ CHANNEL, WRITE REFERENCE and READ REFERENCE; the activity test (R47) and the row ACTIVITY_HANGOVER_EXPIRY. -/

namespace Sys2Proof.Machine

/-! ### Channels (R27 to R30) -/

/-- The slot a slot byte names: none for FF (11.3). -/
def slotOf (b : Byte) : Option Nat := if b = 0xFF then none else some b.toNat

/-- The records of all channels but one are read by a command, in ascending order (R27; the order is log 9, the extent log 16). -/
def State.checkOtherChannels (s : State) (c : Nat) (tag : Byte) : State :=
  (List.range Config.numChannels).foldl (fun s k => if k = c then s else s.checkChannel k tag) s

/-- Another channel names the inbound slot (R26, R27). -/
def State.slotTaken (s : State) (c : Nat) (slot : Option Nat) : Bool :=
  slot.isSome && (List.range Config.numChannels).any fun k => k != c && (s.channel k).slot == slot

/-- A channel record with its slot and mode written (R28). -/
def Channel.rebound (ch : Channel) (slot : Option Nat) (mode : ChannelMode) : Channel :=
  let ch1 := { ch with slot := slot, mode := mode, parityBad := false, clipRun := if ch.slot = slot then ch.clipRun else 0 }
  if ch.slot = slot ∧ ch.mode = mode then ch1
  else
    { ch1 with comparison := ch.comparison.cleared, detector := ch.detector.countersReset, suppressor := { ch.suppressor with gain := 0 } }

/-- WRITE CHANNEL: the checks of R27 in their order, then R28. -/
def State.takeWriteChannel (tag channel slot mode : Byte) (s : State) : State :=
  s.take 0x10 tag fun s =>
    if 23 < channel.toNat ∨ (31 < slot.toNat ∧ slot ≠ 0xFF) then s.refuse .range
    else
      match modeOf mode with
      | none => s.refuse .range
      | some m =>
        let s := s.checkOtherChannels channel.toNat tag
        if s.slotTaken channel.toNat (slotOf slot) then s.refuse .conflict
        else
          let s := s.checkChannel channel.toNat tag
          (s.putChannel channel.toNat ((s.channel channel.toNat).rebound (slotOf slot) m)).done []

def execWriteChannel (tag channel slot mode : Byte) (s : State) : Host.Outcome State Fault Refusal :=
  .next (s.whilePortsRun (State.takeWriteChannel tag channel slot mode))

/-- The DONE payload of READ CHANNEL (R30, 11.4). -/
def Channel.bytes (ch : Channel) (channel : Byte) : List Byte :=
  [channel, byteOrNone ch.slot, ch.mode.byte, byteOf ch.clipRun, byteOf ch.paths.length] ++ ch.paths.map byteOf

/-- READ CHANNEL (R30). -/
def State.takeReadChannel (tag channel : Byte) (s : State) : State :=
  s.take 0x11 tag fun s =>
    if 23 < channel.toNat then s.refuse .range
    else
      let s := s.checkChannel channel.toNat tag
      s.done ((s.channel channel.toNat).bytes channel)

def execReadChannel (tag channel : Byte) (s : State) : Host.Outcome State Fault Refusal :=
  .next (s.whilePortsRun (State.takeReadChannel tag channel))

/-! ### References (R36 to R39) -/

/-- The records of all references but one are read by a command, in ascending order (R36). -/
def State.checkOtherReferences (s : State) (r : Nat) (tag : Byte) : State :=
  (List.range Config.numReferences).foldl (fun s k => if k = r then s else s.checkReference k tag) s

/-- Another reference names the outbound slot (R26, R36). -/
def State.outSlotTaken (s : State) (r : Nat) (slot : Option Nat) : Bool :=
  slot.isSome && (List.range Config.numReferences).any fun k => k != r && (s.reference k).slot == slot

/-- The path is not UNUSED and names the reference (R36). -/
def PathRecord.uses (p : PathRecord) (r : Nat) : Bool := p.state != .unused && p.reference == some r

/-- The comparison state reset, once each, of every channel whose path list holds a path on the reference (R37). -/
def State.resetUsers (s : State) (r : Nat) : State :=
  s.setChannels <| s.channels.map fun ch =>
    if ch.paths.any fun p => (s.path p).reference == some r then { ch with comparison := ch.comparison.cleared } else ch

/-- WRITE REFERENCE carried out: the five fields, and what each change of them brings (R37, R46). -/
def State.writeReference (s : State) (r : Nat) (slot : Option Nat) (bulk depth : Nat) (threshold : Int) (hangover : Nat) : State :=
  let old := s.reference r
  let record : Reference :=
    { slot := slot, bulk := bulk, depth := depth, threshold := threshold, hangover := hangover, active := old.active,
      hangoverCount := old.hangoverCount, parityBad := false }
  if old.slot ≠ slot then
    (((s.putReference r { record with active := false, hangoverCount := 0 }).putHistory r silentHistory).putModulator r
      Modulator.initial).resetUsers r
  else
    let s1 := s.putReference r record
    let s2 := if old.depth = 0 ∧ depth ≠ 0 then s1.putModulator r (s1.modulator r).cleared else s1
    if old.bulk ≠ bulk then s2.resetUsers r else s2

/-- WRITE REFERENCE: the checks of R36 in their order, then R37. -/
def State.takeWriteReference (tag reference slot bulk depth : Byte) (threshold : Half) (hangover : Byte) (s : State) : State :=
  s.take 0x12 tag fun s =>
    if 7 < reference.toNat ∨ (15 < slot.toNat ∧ slot ≠ 0xFF) ∨ 127 < bulk.toNat ∨ 3 < depth.toNat ∨ threshold.toInt < -180 ∨
        -40 < threshold.toInt then
      s.refuse .range
    else
      let s := s.checkOtherReferences reference.toNat tag
      if s.outSlotTaken reference.toNat (slotOf slot) then s.refuse .conflict
      else if slotOf slot = none ∧ s.paths.any fun p => p.uses reference.toNat then s.refuse .conflict
      else if s.paths.any fun p => p.uses reference.toNat && decide (512 < bulk.toNat + p.length) then s.refuse .range
      else
        let s := s.checkReference reference.toNat tag
        (s.writeReference reference.toNat (slotOf slot) bulk.toNat depth.toNat threshold.toInt hangover.toNat).done []

def execWriteReference (tag reference slot bulk depth : Byte) (threshold : Half) (hangover : Byte) (s : State) :
    Host.Outcome State Fault Refusal :=
  .next (s.whilePortsRun (State.takeWriteReference tag reference slot bulk depth threshold hangover))

/-- The DONE payload of READ REFERENCE (R39, 11.4). -/
def Reference.bytes (r : Reference) (reference : Byte) : List Byte :=
  [reference, byteOrNone r.slot, byteOf r.bulk, byteOf r.depth] ++ halfBytes (BitVec.ofInt 16 r.threshold) ++
    [byteOf r.hangover, byteOfBool r.active, byteOf r.hangoverCount]

/-- READ REFERENCE (R39). -/
def State.takeReadReference (tag reference : Byte) (s : State) : State :=
  s.take 0x13 tag fun s =>
    if 7 < reference.toNat then s.refuse .range
    else
      let s := s.checkReference reference.toNat tag
      s.done ((s.reference reference.toNat).bytes reference)

def execReadReference (tag reference : Byte) (s : State) : Host.Outcome State Fault Refusal :=
  .next (s.whilePortsRun (State.takeReadReference tag reference))

/-! ### The activity test (R47) -/

/-- The activity test's effect, given whether the appended block reaches the threshold (R47). -/
def Reference.tested (r : Reference) (reaches : Bool) : Reference :=
  if reaches then { r with active := true, hangoverCount := r.hangover }
  else if 0 < r.hangoverCount then { r with hangoverCount := r.hangoverCount - 1 }
  else { r with active := false }

/-- ACTIVITY_HANGOVER_EXPIRY: the activity test of a block below the threshold that finds an ACTIVE reference's hangover count at 0 (R47).
The row is this transition alone; it does not come about unless the reference is ACTIVE with count 0 (log 2, log 3). -/
def execActivityHangoverExpiry (reference : Nat) (s : State) : Host.Outcome State Fault Refusal :=
  .next <|
    let r := s.reference reference
    if r.active ∧ r.hangoverCount = 0 then s.putReference reference (r.tested false) else s

end Sys2Proof.Machine
end

