-- ==== Sys2Proof/Machine/TalkCommands.lean ====
section
/-! DEFINITION. The commands of chapters 3, 4, 6 and 7: FREEZE CHANNEL, WRITE COEFF, WRITE COMPARISON, PROMOTE CHANNEL, READ CHANNEL STATS, WRITE DETECTOR, WRITE DECISION, READ DECISION, SELECT DECISION BANK, WRITE SUPPRESSOR. -/

namespace Sys2Proof.Machine

/-! ### Freezing and loading (R62, R64, R65) -/

/-- FREEZE CHANNEL carried out (R62). The window count that it and a block of the channel leave when they fall together goes by the two
bullets of R63, not by its last sentence (log 31, the model's choice). -/
def State.freeze (s : State) (c : Nat) (value : Bool) : State :=
  let ch := s.channel c
  if ch.frozen = value then s
  else
    let s1 := s.putChannel c { ch with frozen := value }
    if value then s1.resetComparisonFully c else s1.resetComparison c

/-- FREEZE CHANNEL (R62). -/
def State.takeFreezeChannel (tag channel value : Byte) (s : State) : State :=
  s.take 0x20 tag fun s =>
    if 23 < channel.toNat ∨ 1 < value.toNat then s.refuse .range else (s.freeze channel.toNat (value = 1)).done []

def execFreezeChannel (tag channel value : Byte) (s : State) : Host.Outcome State Fault Refusal :=
  .next (s.whilePortsRun (State.takeFreezeChannel tag channel value))

/-- The owner channel of a path is frozen (R64). -/
def State.ownerFrozen (s : State) (p : Nat) : Bool :=
  match (s.path p).owner with
  | some c => (s.channel c).frozen
  | none => false

/-- WRITE COEFF: the checks of R64 in their order, then R65. -/
def State.takeWriteCoeff (tag path : Byte) (index : Half) (taps : Slot) (s : State) : State :=
  s.take 0x21 tag fun s =>
    if 63 < path.toNat then s.refuse .range
    else if ¬((s.path path.toNat).state = .ready ∧ s.ownerFrozen path.toNat) then s.refuse .state
    else if (s.path path.toNat).readHeld then s.refuse .busy
    else
      match (s.path path.toNat).partitionAt index.toNat with
      | none => s.refuse .range
      | some n => (s.writeSet n (s.path path.toNat).background taps).done []

def execWriteCoeff (tag path : Byte) (index : Half) (taps : Slot) (s : State) : Host.Outcome State Fault Refusal :=
  .next (s.whilePortsRun (State.takeWriteCoeff tag path index taps))

/-! ### The comparator's commands (R78 to R80) -/

/-- The parameters lie in the ranges of R66, margins and threshold in steps of 0.5 dB. -/
def ComparatorParams.inRange (p : ComparatorParams) : Bool :=
  decide (8 ≤ p.window ∧ p.window ≤ 64) && decide (p.promoteMargin ≤ 24) && decide (1 ≤ p.promoteCount ∧ p.promoteCount ≤ 8) &&
    decide (6 ≤ p.divergenceMargin ∧ p.divergenceMargin ≤ 48) && decide (1 ≤ p.divergenceCount ∧ p.divergenceCount ≤ 8) &&
    decide (1 ≤ p.reseedLimit ∧ p.reseedLimit ≤ 15) && decide (p.threshold ≤ 48)

/-- A channel's comparison state under new parameters (R77, R78). -/
def ComparisonState.underParams (m : ComparisonState) (old new : ComparatorParams) : ComparisonState :=
  let m1 := if old.window ≠ new.window then m.windowRestarted else m
  if old.reseedLimit ≠ new.reseedLimit then { m1 with reseedCount := min m1.reseedCount new.reseedLimit } else m1

/-- WRITE COMPARISON carried out (R78). -/
def State.writeComparison (s : State) (p : ComparatorParams) : State :=
  (s.setChannels (s.channels.map fun ch => { ch with comparison := ch.comparison.underParams s.comparator p })).setComparator p

/-- WRITE COMPARISON (R78). -/
def State.takeWriteComparison
    (tag window promoteMargin promoteCount divergenceMargin divergenceCount reseedLimit threshold : Byte) (s : State) : State :=
  s.take 0x30 tag fun s =>
    let p : ComparatorParams :=
      { window := window.toNat, promoteMargin := promoteMargin.toNat, promoteCount := promoteCount.toNat,
        divergenceMargin := divergenceMargin.toNat, divergenceCount := divergenceCount.toNat, reseedLimit := reseedLimit.toNat,
        threshold := threshold.toNat }
    if p.inRange then (s.writeComparison p).done [] else s.refuse .range

def execWriteComparison
    (tag window promoteMargin promoteCount divergenceMargin divergenceCount reseedLimit threshold : Byte) (s : State) :
    Host.Outcome State Fault Refusal :=
  .next (s.whilePortsRun
    (State.takeWriteComparison tag window promoteMargin promoteCount divergenceMargin divergenceCount reseedLimit threshold))

/-- PROMOTE CHANNEL: the checks of R79 in their order, then R74. -/
def State.takePromoteChannel (tag channel : Byte) (s : State) : State :=
  s.take 0x31 tag fun s =>
    if 23 < channel.toNat then s.refuse .range
    else
      let paths := (s.channel channel.toNat).paths
      if paths = [] then s.refuse .state
      else if paths.any fun p => (s.path p).state == .seeding || s.readbackOf p then s.refuse .busy
      else (s.applyPromotion channel.toNat).done []

def execPromoteChannel (tag channel : Byte) (s : State) : Host.Outcome State Fault Refusal :=
  .next (s.whilePortsRun (State.takePromoteChannel tag channel))

/-- A whole-dBFS level or unknown, unknown being 7F (11.3). -/
def levelByte : Option Int → Byte
  | none => 0x7F
  | some v => byteOfInt v

/-- The floor estimate rounded down to a whole dBFS (R124). -/
def SuppressorState.wholeFloor (p : SuppressorState) : Int := p.floor / 4

/-- The DONE payload of READ CHANNEL STATS (R80, R124, 11.4). -/
def Channel.statsBytes (ch : Channel) (channel : Byte) : List Byte :=
  [channel, ch.last.talk.byte, flagsByte ch.last.flags.bits, byteOf ch.comparison.count, byteOrNone ch.comparison.erle,
    levelByte ch.comparison.liveLevel, levelByte ch.comparison.backgroundLevel, byteOf ch.comparison.promoteStreak,
    byteOf ch.comparison.divergenceStreak, byteOf ch.comparison.reseedCount, byteOfBool ch.comparison.pendingPromote,
    byteOfInt ch.suppressor.gain, byteOfInt ch.suppressor.wholeFloor, byteOf ch.clipRun]

/-- READ CHANNEL STATS (R80). -/
def State.takeReadChannelStats (tag channel : Byte) (s : State) : State :=
  s.take 0x32 tag fun s =>
    if 23 < channel.toNat then s.refuse .range else s.done ((s.channel channel.toNat).statsBytes channel)

def execReadChannelStats (tag channel : Byte) (s : State) : Host.Outcome State Fault Refusal :=
  .next (s.whilePortsRun (State.takeReadChannelStats tag channel))

/-! ### Detector, decision table and suppressor (R108 to R113, R123) -/

/-- WRITE DETECTOR (R95, R113). -/
def State.takeWriteDetector (tag channel nearThreshold echoMargin enterDebounce nearHangover : Byte) (s : State) : State :=
  s.take 0x50 tag fun s =>
    if 23 < channel.toNat ∨ nearThreshold.toNat < 6 ∨ 60 < nearThreshold.toNat ∨ 60 < echoMargin.toNat ∨ enterDebounce.toNat < 1 ∨
        15 < enterDebounce.toNat then
      s.refuse .range
    else
      let ch := s.channel channel.toNat
      (s.putChannel channel.toNat
        { ch with
          detector :=
            { ch.detector with
              nearThreshold := nearThreshold.toNat
              echoMargin := echoMargin.toNat
              enterDebounce := enterDebounce.toNat
              nearHangover := nearHangover.toNat } }).done []

def execWriteDetector (tag channel nearThreshold echoMargin enterDebounce nearHangover : Byte) (s : State) :
    Host.Outcome State Fault Refusal :=
  .next (s.whilePortsRun (State.takeWriteDetector tag channel nearThreshold echoMargin enterDebounce nearHangover))

/-- The entry that a control byte, mask, match and target spell, with fresh parity (R103, 11.4). -/
def decisionEntryOf (control mask want target : Byte) : DecisionEntry :=
  { valid := control.getLsbD 7, mask := mask.setWidth 7, want := want.setWidth 7, adapt := control.getLsbD 6,
    stepScale := control.toNat % 4, target := target.toNat, fill := control.getLsbD 5, parityBad := false }

/-- An entry of a bank replaced. -/
def Decision.putEntry (d : Decision) (bank entry : Nat) (e : DecisionEntry) : Decision :=
  if bank = 0 then { d with bank0 := d.bank0.set entry e } else { d with bank1 := d.bank1.set entry e }

/-- An entry of a bank. -/
def Decision.entry (d : Decision) (bank entry : Nat) : DecisionEntry := (d.bank bank).getD entry DecisionEntry.blank

/-- WRITE DECISION: the checks of R108 in their order, then R109. -/
def State.takeWriteDecision (tag bank entry control mask want target : Byte) (s : State) : State :=
  s.take 0x51 tag fun s =>
    if 1 < bank.toNat ∨ 15 < entry.toNat ∨ control &&& 0x1C ≠ 0 ∨ mask.getLsbD 7 ∨ want.getLsbD 7 ∨ 45 < target.toNat ∨
        target.toNat % 3 ≠ 0 then
      s.refuse .range
    else if want &&& ~~~mask ≠ 0 then s.refuse .range
    else if bank.toNat = s.decision.active then s.refuse .state
    else (s.setDecision (s.decision.putEntry bank.toNat entry.toNat (decisionEntryOf control mask want target))).done []

def execWriteDecision (tag bank entry control mask want target : Byte) (s : State) : Host.Outcome State Fault Refusal :=
  .next (s.whilePortsRun (State.takeWriteDecision tag bank entry control mask want target))

/-- The DONE payload of READ DECISION (R110, 11.4). -/
def Decision.bytes (d : Decision) (bank entry : Byte) : List Byte :=
  let e := d.entry bank.toNat entry.toNat
  [bank, entry, byteOfBool (decide (d.active = bank.toNat)), e.control, flagsByte e.mask, flagsByte e.want, byteOf e.target]

/-- READ DECISION (R110). -/
def State.takeReadDecision (tag bank entry : Byte) (s : State) : State :=
  s.take 0x52 tag fun s =>
    if 1 < bank.toNat ∨ 15 < entry.toNat then s.refuse .range
    else
      let s :=
        if (s.decision.entry bank.toNat entry.toNat).parityBad then s.raise .tableParity (.bankEntry bank.toNat entry.toNat) (some tag)
        else s
      s.done (s.decision.bytes bank entry)

def execReadDecision (tag bank entry : Byte) (s : State) : Host.Outcome State Fault Refusal :=
  .next (s.whilePortsRun (State.takeReadDecision tag bank entry))

/-- SELECT DECISION BANK (R111). -/
def State.takeSelectDecisionBank (tag bank : Byte) (s : State) : State :=
  s.take 0x53 tag fun s =>
    if 1 < bank.toNat then s.refuse .range else (s.setDecision { s.decision with active := bank.toNat }).done []

def execSelectDecisionBank (tag bank : Byte) (s : State) : Host.Outcome State Fault Refusal :=
  .next (s.whilePortsRun (State.takeSelectDecisionBank tag bank))

/-- WRITE SUPPRESSOR (R114, R123). -/
def State.takeWriteSuppressor (tag channel attack release offset : Byte) (s : State) : State :=
  s.take 0x60 tag fun s =>
    if 23 < channel.toNat ∨ attack.toNat < 2 ∨ 24 < attack.toNat ∨ release.toNat < 1 ∨ 12 < release.toNat ∨ offset.toInt < -12 ∨
        12 < offset.toInt then
      s.refuse .range
    else
      let ch := s.channel channel.toNat
      (s.putChannel channel.toNat
        { ch with
          suppressor := { ch.suppressor with attack := attack.toNat, release := release.toNat, offset := offset.toInt } }).done []

def execWriteSuppressor (tag channel attack release offset : Byte) (s : State) : Host.Outcome State Fault Refusal :=
  .next (s.whilePortsRun (State.takeWriteSuppressor tag channel attack release offset))

end Sys2Proof.Machine
end

