-- ==== Sys2Proof/Machine/ControlCommands.lean ====
section
/-! DEFINITION. The commands of chapters 9 and 10 but RESET: STATUS, READ PATH, ABORT READ, SET NOTICE, SET MODE, READ FAULTS, CLEAR FAULTS, WRITE FAULT POLICY, SET SAFE ACTION. -/

namespace Sys2Proof.Machine

/-! ### STATUS, readback, notices (R148 to R150, R153, R154) -/

/-- The readback fields of STATUS: state, path id, set, next index, remaining count (11.3, 11.4). -/
def Streamer.bytes : Streamer → List Byte
  | .idle => [0, 0xFF, 0, 0, 0, 0, 0]
  | .streaming rb => [1, byteOf rb.path, rb.set.byte] ++ bytes2 rb.next ++ bytes2 rb.remaining
  | .closing _ => [2, 0xFF, 0, 0, 0, 0, 0]

/-- The DONE payload of STATUS (R148, 11.4). The family code's base is log 13. -/
def State.statusBytes (s : State) : List Byte :=
  [0x24, 0x01, s.unit.opState.byte, s.ports.lock.byte, s.unit.cause.byte] ++ classSetBytes s.unit.status ++ s.unit.recordBytes ++
    bytes2 s.pool.freeCount ++ [byteOf s.seed.queue.length] ++ s.control.streamer.bytes ++ [byteOf s.decision.active]

/-- STATUS (R148). -/
def State.takeStatus (tag : Byte) (s : State) : State := s.take 0x70 tag fun s => s.done s.statusBytes

def execStatus (tag : Byte) (s : State) : Host.Outcome State Fault Refusal := .next (s.whilePortsRun (State.takeStatus tag))

/-- The set a set byte names. -/
def readSetOf (b : Byte) : ReadSet := if b = 0 then .live else .background

/-- A readback begins (R150). -/
def State.startReadback (s : State) (rb : Readback) : State :=
  let s1 := s.setStreamer (.streaming rb)
  if rb.set = .background then s1.putPath rb.path { s1.path rb.path with readHeld := true } else s1

/-- READ PATH: the checks of R149 in their order, then R150. -/
def State.takeReadPath (tag path set : Byte) (first count : Half) (s : State) : State :=
  s.take 0x71 tag fun s =>
    if 63 < path.toNat ∨ 1 < set.toNat ∨ 447 < first.toNat ∨ count.toNat < 1 ∨ 448 < count.toNat then s.refuse .range
    else if s.control.streamer ≠ .idle then s.refuse .busy
    else if (s.path path.toNat).state = .unused ∨ ((s.path path.toNat).state = .seeding ∧ readSetOf set = .background) then s.refuse .state
    else if (s.path path.toNat).length < first.toNat + count.toNat then s.refuse .range
    else
      (s.startReadback
        { tag := tag, path := path.toNat, set := readSetOf set, next := first.toNat, remaining := count.toNat }).done []

def execReadPath (tag path set : Byte) (first count : Half) (s : State) : Host.Outcome State Fault Refusal :=
  .next (s.whilePortsRun (State.takeReadPath tag path set first count))

/-- A readback is in progress. -/
def Streamer.isStreaming : Streamer → Bool
  | .streaming _ => true
  | .idle => false
  | .closing _ => false

/-- ABORT READ (R153). -/
def State.takeAbortRead (tag : Byte) (s : State) : State :=
  s.take 0x72 tag fun s => if s.control.streamer.isStreaming then s.abortReadback.done [] else s.refuse .state

def execAbortRead (tag : Byte) (s : State) : Host.Outcome State Fault Refusal := .next (s.whilePortsRun (State.takeAbortRead tag))

/-- SET NOTICE (R154). -/
def State.takeSetNotice (tag fault state path : Byte) (s : State) : State :=
  s.take 0x73 tag fun s =>
    if 1 < fault.toNat ∨ 1 < state.toNat ∨ 1 < path.toNat then s.refuse .range
    else
      (s.setControl
        { s.control with enableFault := decide (fault = 1), enableState := decide (state = 1), enablePath := decide (path = 1) }).done []

def execSetNotice (tag fault state path : Byte) (s : State) : Host.Outcome State Fault Refusal :=
  .next (s.whilePortsRun (State.takeSetNotice tag fault state path))

/-! ### Operating state and faults (R163 to R165, R168, R169) -/

/-- The operating state a mode byte names; none when it names neither RUN nor BYPASS. -/
def opStateOf (b : Byte) : Option OpState := if b = 1 then some .run else if b = 2 then some .bypass else none

/-- What entry to RUN from BYPASS or SAFE does to every channel (R161). -/
def State.freshChannels (s : State) : State :=
  s.setChannels (s.channels.map fun ch => { ch with comparison := ch.comparison.cleared, detector := ch.detector.countersReset })

/-- The part enters the mode that SET MODE names (R161, R163). -/
def State.enterMode (s : State) (mode : OpState) (tag : Byte) : State :=
  (if mode = .run then s.freshChannels else s).enterState mode .command (some tag)

/-- SET MODE: the checks of R163 in their order. -/
def State.takeSetMode (tag mode : Byte) (s : State) : State :=
  s.take 0x80 tag fun s =>
    match opStateOf mode with
    | none => s.refuse .range
    | some m =>
      if s.unit.opState = .offline then s.refuse .state
      else if s.unit.opState = m then s.done []
      else if ¬(s.ports.lock = .locked ∧ s.unit.graveSet = false) then s.refuse .state
      else (s.enterMode m tag).done []

def execSetMode (tag mode : Byte) (s : State) : Host.Outcome State Fault Refusal := .next (s.whilePortsRun (State.takeSetMode tag mode))

/-- The DONE payload of READ FAULTS (R169, 11.4). -/
def FaultUnit.bytes (u : FaultUnit) : List Byte :=
  classSetBytes u.status ++ classSetBytes u.masks ++ classSetBytes u.severities ++ u.recordBytes

/-- READ FAULTS (R169). -/
def State.takeReadFaults (tag : Byte) (s : State) : State := s.take 0x81 tag fun s => s.done s.unit.bytes

def execReadFaults (tag : Byte) (s : State) : Host.Outcome State Fault Refusal := .next (s.whilePortsRun (State.takeReadFaults tag))

/-- A set of classes names one of the bits 12 to 15, which name no class (11.3). -/
def namesNoClass (h : Half) : Bool := h.extractLsb' 12 4 != 0

/-- The first-fault record's class is in the set. -/
def FaultUnit.recordIn (u : FaultUnit) (classes : BitVec 12) : Bool :=
  match u.record with
  | some r => classes.getLsbD r.cls.code
  | none => false

/-- The statuses of a set of classes cleared, and the record with them when it names one (R168). -/
def FaultUnit.clear (u : FaultUnit) (classes : BitVec 12) : FaultUnit :=
  let u1 := { u with status := u.status &&& ~~~classes }
  if u.recordIn classes then { u1 with record := none, multiple := false } else u1

/-- CLEAR FAULTS (R168). -/
def State.takeClearFaults (tag : Byte) (classes : Half) (s : State) : State :=
  s.take 0x82 tag fun s =>
    if namesNoClass classes then s.refuse .range else (s.setUnit (s.unit.clear (classes.setWidth 12))).done []

def execClearFaults (tag : Byte) (classes : Half) (s : State) : Host.Outcome State Fault Refusal :=
  .next (s.whilePortsRun (State.takeClearFaults tag classes))

/-- WRITE FAULT POLICY (R165; bits 12 to 15 are log 18). -/
def State.takeWriteFaultPolicy (tag : Byte) (masks severities : Half) (s : State) : State :=
  s.take 0x83 tag fun s =>
    if namesNoClass masks || namesNoClass severities then s.refuse .range
    else (s.setUnit { s.unit with masks := masks.setWidth 12, severities := severities.setWidth 12 }).done []

def execWriteFaultPolicy (tag : Byte) (masks severities : Half) (s : State) : Host.Outcome State Fault Refusal :=
  .next (s.whilePortsRun (State.takeWriteFaultPolicy tag masks severities))

/-- The safe action an action byte names; none when it names neither. -/
def safeActionOf (b : Byte) : Option SafeAction := if b = 0 then some .pass else if b = 1 then some .mute else none

/-- SET SAFE ACTION (R164). -/
def State.takeSetSafeAction (tag action : Byte) (s : State) : State :=
  s.take 0x84 tag fun s =>
    match safeActionOf action with
    | none => s.refuse .range
    | some a => (s.setUnit { s.unit with safeAction := a }).done []

def execSetSafeAction (tag action : Byte) (s : State) : Host.Outcome State Fault Refusal :=
  .next (s.whilePortsRun (State.takeSetSafeAction tag action))

end Sys2Proof.Machine
end

