-- ==== Sys2Proof/Machine/Resets.lean ====
section
/-! DEFINITION. The four resets (R170): POWER_ON, the reset pin with its assertion and its release (R126), and the two kinds of the RESET command (R91, R92, R157, R171). -/

namespace Sys2Proof.Machine

/-- POWER_ON: every piece of state at its reset value, the reset cause POWER (R170). What waits in the queue is outside the part. -/
def execPowerOn (s : State) : Host.Outcome State Fault Refusal := .next (State.reset.setPending s.pending)

/-- RESET_PIN_ASSERT: both ports stop, and what they were transmitting ends (R126). The reset itself comes at release. -/
def execResetPinAssert (s : State) : Host.Outcome State Fault Refusal :=
  .next (s.setPorts { s.ports with pinHeld := true, roomTx := none, coreTx := none })

/-- The fault unit after the reset pin or RESET FULL: reset values, but the statuses, the first-fault record and the multiple flag kept, and
the reset cause set (R170). -/
def FaultUnit.afterReset (u : FaultUnit) (cause : ResetCause) : FaultUnit :=
  { FaultUnit.initial with cause := cause, status := u.status, record := u.record, multiple := u.multiple }

/-- RESET_PIN: the release of the held pin resets the part (R157, R170). The release is also that of a hold that no row announced (log 11). -/
def execResetPin (s : State) : Host.Outcome State Fault Refusal :=
  .next ((State.reset.setPending s.pending).setUnit (s.unit.afterReset .pin))

/-- What RESET FULL leaves in the streamer: the ABORTED packet of its own abort, and nothing else (R157, R170; log 12). -/
def Streamer.abortedByReset : Streamer → Streamer
  | .streaming rb => .closing rb
  | .idle => .idle
  | .closing _ => .idle

/-- RESET FULL carried out, in the order of R157: pending promotes cleared, the readback aborted, the queues emptied, and every piece of
state at its reset value but what R170 keeps. What the ports last transmitted stands, and so does the pin's level (log 12). -/
def State.resetFull (s : State) : State :=
  let aborted := s.clearAllPending.abortReadback
  let kept := s.control.streamer.abortedByReset
  ((((State.reset.setPending aborted.pending).setUnit (aborted.unit.afterReset .command)).setControl
    { Control.initial with streamer := kept }).setPorts
      { Ports.initial with pinHeld := s.ports.pinHeld, roomTx := s.ports.roomTx, coreTx := s.ports.coreTx })

/-- RESET FULL (R171): its DONE reply is appended to the emptied reply queue. -/
def State.takeResetFull (tag : Byte) (s : State) : State := s.take 0x85 tag fun s => s.resetFull.done []

def execResetFull (tag : Byte) (s : State) : Host.Outcome State Fault Refusal := .next (s.whilePortsRun (State.takeResetFull tag))

/-- A path record after RESET ADAPTATION (R92). -/
def PathRecord.relearning (r : PathRecord) : PathRecord :=
  if r.state = .unused then r else { r with live := .a, state := .seeding, readHeld := false }

/-- The CLEAR request of a path in use; none for an UNUSED record (R92). -/
def clearOf (p : Nat) (r : PathRecord) : Option SeedRequest := if r.state = .unused then none else some (wholeChain p .clear r)

/-- RESET ADAPTATION carried out: R91's ending of the work in flight, then R92. -/
def State.resetAdaptation (s : State) : State :=
  let s1 := s.clearAllPending.abortReadback
  (((s1.setPaths (s1.paths.map PathRecord.relearning)).setQueue
    ((List.range Config.numPaths).filterMap fun p => clearOf p (s1.path p))).setChannels
      (s1.channels.map fun ch => { ch with comparison := ComparisonState.initial }))

/-- RESET ADAPTATION (R91, R92, R171). -/
def State.takeResetAdaptation (tag : Byte) (s : State) : State := s.take 0x85 tag fun s => s.resetAdaptation.done []

def execResetAdaptation (tag : Byte) (s : State) : Host.Outcome State Fault Refusal :=
  .next (s.whilePortsRun (State.takeResetAdaptation tag))

end Sys2Proof.Machine
end

