-- ==== Sys2Proof/Machine/Taking.lean ====
section
/-! DEFINITION. The taking of a consumed command from its packet: the command's row read from code and payload (R145, spec/11 section 11.4), the packet a command row is sent in, and the checks UNKNOWN and LENGTH. -/

namespace Sys2Proof.Machine

/-- The request payload length of a command code; none for a code the part does not know (11.4). -/
def commandLength (code : Byte) : Option Nat :=
  match code.toNat with
  | 0x01 => some 5
  | 0x02 => some 1
  | 0x03 => some 3
  | 0x04 => some 2
  | 0x05 => some 1
  | 0x06 => some 0
  | 0x07 => some 4
  | 0x10 => some 3
  | 0x11 => some 1
  | 0x12 => some 7
  | 0x13 => some 1
  | 0x20 => some 2
  | 0x21 => some 195
  | 0x30 => some 7
  | 0x31 => some 1
  | 0x32 => some 1
  | 0x40 => some 2
  | 0x50 => some 5
  | 0x51 => some 6
  | 0x52 => some 2
  | 0x53 => some 1
  | 0x60 => some 4
  | 0x70 => some 0
  | 0x71 => some 6
  | 0x72 => some 0
  | 0x73 => some 3
  | 0x80 => some 1
  | 0x81 => some 0
  | 0x82 => some 2
  | 0x83 => some 4
  | 0x84 => some 1
  | 0x85 => some 1
  | _ => none

/-- The two kinds of RESET; none for a kind byte that names neither (R171). -/
def resetRow (tag kind : Byte) : Option Instr := if kind = 0 then some (.resetFull tag) else if kind = 1 then some (.resetAdaptation tag) else none

/-- The row that a known command code and a payload of its length spell (11.4); none for a RESET of no kind. -/
def commandRow (code tag : Byte) (p : List Byte) : Option Instr :=
  let b := payloadByte p
  let h := payloadHalf p
  match code.toNat with
  | 0x01 => some (.allocatePath tag (b 0) (b 1) (h 2) (b 4))
  | 0x02 => some (.releasePath tag (b 0))
  | 0x03 => some (.resizePath tag (b 0) (h 1))
  | 0x04 => some (.setStep tag (b 0) (b 1))
  | 0x05 => some (.readPathRecord tag (b 0))
  | 0x06 => some (.readPool tag)
  | 0x07 => some (.readChain tag (b 0) (h 1) (b 3))
  | 0x10 => some (.writeChannel tag (b 0) (b 1) (b 2))
  | 0x11 => some (.readChannel tag (b 0))
  | 0x12 => some (.writeReference tag (b 0) (b 1) (b 2) (b 3) (h 4) (b 6))
  | 0x13 => some (.readReference tag (b 0))
  | 0x20 => some (.freezeChannel tag (b 0) (b 1))
  | 0x21 => some (.writeCoeff tag (b 0) (h 1) (samplesOf (p.drop 3)))
  | 0x30 => some (.writeComparison tag (b 0) (b 1) (b 2) (b 3) (b 4) (b 5) (b 6))
  | 0x31 => some (.promoteChannel tag (b 0))
  | 0x32 => some (.readChannelStats tag (b 0))
  | 0x40 => some (.readSeedQueue tag (b 0) (b 1))
  | 0x50 => some (.writeDetector tag (b 0) (b 1) (b 2) (b 3) (b 4))
  | 0x51 => some (.writeDecision tag (b 0) (b 1) (b 2) (b 3) (b 4) (b 5))
  | 0x52 => some (.readDecision tag (b 0) (b 1))
  | 0x53 => some (.selectDecisionBank tag (b 0))
  | 0x60 => some (.writeSuppressor tag (b 0) (b 1) (b 2) (b 3))
  | 0x70 => some (.status tag)
  | 0x71 => some (.readPath tag (b 0) (b 1) (h 2) (h 4))
  | 0x72 => some (.abortRead tag)
  | 0x73 => some (.setNotice tag (b 0) (b 1) (b 2))
  | 0x80 => some (.setMode tag (b 0))
  | 0x81 => some (.readFaults tag)
  | 0x82 => some (.clearFaults tag (h 0))
  | 0x83 => some (.writeFaultPolicy tag (h 0) (h 2))
  | 0x84 => some (.setSafeAction tag (b 0))
  | 0x85 => resetRow tag (b 0)
  | _ => none

/-- What the conferencing core sends to have a command row taken: code, tag and request payload (11.4); none for a row that is no
command. -/
def commandOf : Instr → Option (Byte × Byte × List Byte)
  | .allocatePath t channel reference length step => some (0x01, t, [channel, reference] ++ halfBytes length ++ [step])
  | .releasePath t path => some (0x02, t, [path])
  | .resizePath t path length => some (0x03, t, [path] ++ halfBytes length)
  | .setStep t path step => some (0x04, t, [path, step])
  | .readPathRecord t path => some (0x05, t, [path])
  | .readPool t => some (0x06, t, [])
  | .readChain t selector start count => some (0x07, t, [selector] ++ halfBytes start ++ [count])
  | .writeChannel t channel slot mode => some (0x10, t, [channel, slot, mode])
  | .readChannel t channel => some (0x11, t, [channel])
  | .writeReference t reference slot bulk depth threshold hangover =>
      some (0x12, t, [reference, slot, bulk, depth] ++ halfBytes threshold ++ [hangover])
  | .readReference t reference => some (0x13, t, [reference])
  | .freezeChannel t channel value => some (0x20, t, [channel, value])
  | .writeCoeff t path index taps => some (0x21, t, [path] ++ halfBytes index ++ slotBytes taps)
  | .writeComparison t w pm pc dm dc rl th => some (0x30, t, [w, pm, pc, dm, dc, rl, th])
  | .promoteChannel t channel => some (0x31, t, [channel])
  | .readChannelStats t channel => some (0x32, t, [channel])
  | .readSeedQueue t start count => some (0x40, t, [start, count])
  | .writeDetector t channel near echo debounce hangover => some (0x50, t, [channel, near, echo, debounce, hangover])
  | .writeDecision t bank entry control mask want target => some (0x51, t, [bank, entry, control, mask, want, target])
  | .readDecision t bank entry => some (0x52, t, [bank, entry])
  | .selectDecisionBank t bank => some (0x53, t, [bank])
  | .writeSuppressor t channel attack release offset => some (0x60, t, [channel, attack, release, offset])
  | .status t => some (0x70, t, [])
  | .readPath t path set first count => some (0x71, t, [path, set] ++ halfBytes first ++ halfBytes count)
  | .abortRead t => some (0x72, t, [])
  | .setNotice t fault state path => some (0x73, t, [fault, state, path])
  | .setMode t mode => some (0x80, t, [mode])
  | .readFaults t => some (0x81, t, [])
  | .clearFaults t classes => some (0x82, t, halfBytes classes)
  | .writeFaultPolicy t masks severities => some (0x83, t, halfBytes masks ++ halfBytes severities)
  | .setSafeAction t action => some (0x84, t, [action])
  | .resetFull t => some (0x85, t, [0])
  | .resetAdaptation t => some (0x85, t, [1])
  | .powerOn | .resetPinAssert | .resetPin | .outboundGoodArrival .. | .outboundBadArrival .. | .blockIntervalTimerExpiry
  | .lockAcquired | .lockLoss | .coreSilence | .roomSilenceAdvance _ | .roomSilence _ | .inboundGoodArrival .. | .inboundBadArrival ..
  | .inboundBlockTransmit | .seedStep | .windowEnd .. | .captureClip _ | .activityHangoverExpiry _ | .nearHangoverExpiry _ => none

/-- A COMMAND packet in its bytes, CRC included (11.2). -/
def commandPacketBytes (distance : Nat) (tag code : Byte) (payload : List Byte) : List Byte :=
  withCrc ([byteOf (0x10 + distance), tag, code, byteOf payload.length] ++ payload)

/-- The taking of a command row (R144); no effect for a row that is no command. -/
def State.takeRow (s : State) : Instr → State
  | .allocatePath t channel reference length step => s.takeAllocatePath t channel reference length step
  | .releasePath t path => s.takeReleasePath t path
  | .resizePath t path length => s.takeResizePath t path length
  | .setStep t path step => s.takeSetStep t path step
  | .readPathRecord t path => s.takeReadPathRecord t path
  | .readPool t => s.takeReadPool t
  | .readChain t selector start count => s.takeReadChain t selector start count
  | .writeChannel t channel slot mode => s.takeWriteChannel t channel slot mode
  | .readChannel t channel => s.takeReadChannel t channel
  | .writeReference t reference slot bulk depth threshold hangover =>
      s.takeWriteReference t reference slot bulk depth threshold hangover
  | .readReference t reference => s.takeReadReference t reference
  | .freezeChannel t channel value => s.takeFreezeChannel t channel value
  | .writeCoeff t path index taps => s.takeWriteCoeff t path index taps
  | .writeComparison t w pm pc dm dc rl th => s.takeWriteComparison t w pm pc dm dc rl th
  | .promoteChannel t channel => s.takePromoteChannel t channel
  | .readChannelStats t channel => s.takeReadChannelStats t channel
  | .readSeedQueue t start count => s.takeReadSeedQueue t start count
  | .writeDetector t channel near echo debounce hangover => s.takeWriteDetector t channel near echo debounce hangover
  | .writeDecision t bank entry control mask want target => s.takeWriteDecision t bank entry control mask want target
  | .readDecision t bank entry => s.takeReadDecision t bank entry
  | .selectDecisionBank t bank => s.takeSelectDecisionBank t bank
  | .writeSuppressor t channel attack release offset => s.takeWriteSuppressor t channel attack release offset
  | .status t => s.takeStatus t
  | .readPath t path set first count => s.takeReadPath t path set first count
  | .abortRead t => s.takeAbortRead t
  | .setNotice t fault state path => s.takeSetNotice t fault state path
  | .setMode t mode => s.takeSetMode t mode
  | .readFaults t => s.takeReadFaults t
  | .clearFaults t classes => s.takeClearFaults t classes
  | .writeFaultPolicy t masks severities => s.takeWriteFaultPolicy t masks severities
  | .setSafeAction t action => s.takeSetSafeAction t action
  | .resetFull t => s.takeResetFull t
  | .resetAdaptation t => s.takeResetAdaptation t
  | .powerOn | .resetPinAssert | .resetPin | .outboundGoodArrival .. | .outboundBadArrival .. | .blockIntervalTimerExpiry
  | .lockAcquired | .lockLoss | .coreSilence | .roomSilenceAdvance _ | .roomSilence _ | .inboundGoodArrival .. | .inboundBadArrival ..
  | .inboundBlockTransmit | .seedStep | .windowEnd .. | .captureClip _ | .activityHangoverExpiry _ | .nearHangoverExpiry _ => s

/-- A consumed command executed: refused UNKNOWN or LENGTH, or taken as its row; a RESET of no kind is refused RANGE (R144, R145, R171). -/
def State.takeCommand (s : State) (code tag : Byte) (payload : List Byte) : State :=
  match commandLength code with
  | none => s.take code tag fun s => s.refuse .unknown
  | some n =>
    if payload.length ≠ n then s.take code tag fun s => s.refuse .length
    else
      match commandRow code tag payload with
      | none => s.take code tag fun s => s.refuse .range
      | some row => s.takeRow row

end Sys2Proof.Machine
end

