-- ==== Sys2Proof/Machine/Outbound.lean ====
section
/-! DEFINITION. The core port's outbound side: the tap and dither unit (R40 to R47), and the rows OUTBOUND_GOOD_ARRIVAL (R129), OUTBOUND_BAD_ARRIVAL (R130) and BLOCK_INTERVAL_TIMER_EXPIRY (R131). -/

namespace Sys2Proof.Machine

/-! ### Tapping and silent appends -/

/-- A block appended to a reference's history, with its activity test (R41, R47). -/
def State.appendTo (s : State) (r : Nat) (b : Slot) : State :=
  let ref := s.reference r
  (s.putHistory r (appendBlock (s.history r) b)).putReference r (ref.tested (reachesThreshold b ref.threshold))

/-- The reference is dithered in this operating state (R45). -/
def Reference.dithered (ref : Reference) (op : OpState) : Bool := op.dithers && ref.slot.isSome && ref.depth != 0

/-- A reference whose record is read with a mismatch in a block period: TABLE_PARITY, its modulator paused with a cleared memory, and a silent
block appended (R40, R46). -/
def State.appendUntrusted (s : State) (r : Nat) : State :=
  let s1 := s.raise .tableParity (.reference r) none
  (s1.putModulator r (s1.modulator r).cleared).appendTo r silence

/-- One reference's part of an outbound block with a good header, under the operating state the arrival read (R40, R41, R45). -/
def State.tapReference (op : OpState) (acc : List Slot × State) (r : Nat) : List Slot × State :=
  let slots := acc.1
  let s := acc.2
  let ref := s.reference r
  if ref.parityBad then (slots, s.appendUntrusted r)
  else
    match ref.slot with
    | none => (slots, s.appendTo r silence)
    | some k =>
      let x := slots.getD k silence
      if ref.dithered op then
        let y := (s.modulator r).apply ref.depth x
        (slots.set k y.1, (s.putModulator r y.2).appendTo r y.1)
      else (slots, s.appendTo r x)

/-- The tapping of an outbound block for all references, in ascending order (R41; the order is log 9). -/
def State.tapAll (s : State) (slots : List Slot) : List Slot × State :=
  (List.range Config.numReferences).foldl (State.tapReference s.unit.opState) (slots, s)

/-- One reference's silent append, under the operating state the period read (R40, R42, R46). -/
def State.silentAppend (op : OpState) (s : State) (r : Nat) : State :=
  let ref := s.reference r
  if ref.parityBad then s.appendUntrusted r
  else
    let s1 := if ref.dithered op then s.putModulator r (s.modulator r).skipBlock else s
    s1.appendTo r silence

/-- The silent appends of a period that yields no trusted block (R42). -/
def State.silentAppendAll (s : State) : State := (List.range Config.numReferences).foldl (State.silentAppend s.unit.opState) s

/-! ### Good arrivals (R129, R132) -/

/-- What the lock sees of a good header: the in-sequence test, made before the number is set (R128, R139). -/
def Ports.sightOf (p : Ports) (seq : Byte) : LockSight := if seq = p.lastSeq + 1 then .inSequence else .gap

/-- A good arrival marks its period, and the period's seed step comes before the handling of the block where the row says so. It comes after
the mark (R85) and before the lock's judgement, with which the handling begins (R129; log 4). -/
def State.openPeriod (s : State) (stepFirst : Bool) : State := if stepFirst then s.markPeriod.takeSeedStep else s.markPeriod

/-- Step 1 of R129: the lock's judgement, the number, the core-silence count and the timer. -/
def State.judgeHeader (s : State) (seq : Byte) : State :=
  let s1 := s.lockSees (s.ports.sightOf seq)
  s1.setPorts { s1.ports with lastSeq := seq, coreSilence := 0, timerRunning := true }

/-- What the examination of the control packet decides: the packet in the transmitted block, the command consumed, and whether the packet is
bad (R132). -/
structure Examined where
  passed   : Option (List Byte)
  consumed : Option CommandPacket
  bad      : Bool
  deriving DecidableEq, Repr

/-- The examination of a window (R132). -/
def examine (flags : Byte) (window : List Byte) : Examined :=
  if presentFlag flags then
    match readCommand window with
    | none => { passed := none, consumed := none, bad := true }
    | some c =>
      if c.distance = 0 then { passed := none, consumed := some c, bad := false }
      else if c.distance = 15 then { passed := some c.packet, consumed := some c, bad := false }
      else { passed := some c.lowered, consumed := none, bad := false }
  else { passed := none, consumed := none, bad := false }

/-- The block transmitted on the room port. -/
def State.sendRoom (s : State) (b : LinkBlock) : State := s.setPorts { s.ports with roomTx := some b }

/-- A consumed command taken, if there is one (R144). -/
def State.takeConsumed (s : State) : Option CommandPacket → State
  | none => s
  | some c => s.takeCommand c.code c.tag c.payload

/-- An outbound block with a good header handled (R129). The transmission depends on nothing that the taking of a command does, and a RESET FULL
takes effect after it (R133), so the block is transmitted first. -/
def State.outboundGood (seq flags : Byte) (slots : List Slot) (window : List Byte) (stepFirst : Bool) (s : State) : State :=
  let tapped := ((s.openPeriod stepFirst).judgeHeader seq).tapAll slots
  let x := examine flags window
  let s1 := if x.bad then tapped.2.raise .packetError (.port .core) none else tapped.2
  (s1.sendRoom { seq := seq, filler := fillerFlag flags, slots := tapped.1, packet := x.passed }).takeConsumed x.consumed

/-- OUTBOUND_GOOD_ARRIVAL (R129); not handled while the reset pin is held (R126). -/
def execOutboundGoodArrival (seq flags : Byte) (slots : List Slot) (window : List Byte) (s : State) (stepFirst : Bool := false) :
    Host.Outcome State Fault Refusal :=
  .next (s.whilePortsRun (State.outboundGood seq flags slots window stepFirst))

/-! ### Bad arrivals and missing periods (R130, R131) -/

/-- The last outbound sequence number raised by 1 (R128). -/
def State.advanceSeq (s : State) : State := s.setPorts { s.ports with lastSeq := s.ports.lastSeq + 1 }

/-- What a block period without a good header does before its silent appends: its mark, the lock and the core-silence count (R130, R131). -/
def State.lostPeriod (s : State) : State := (s.markPeriod.lockSees .lost).coreSilenceRises

/-- The slots of an outbound filler block (R130). -/
def fillerSlots (op : OpState) (slots : List Slot) : List Slot :=
  match op with
  | .bypass => slots
  | .offline => List.replicate Config.outSlots silence
  | .run => List.replicate Config.outSlots silence
  | .safe => List.replicate Config.outSlots silence

/-- An outbound block with a bad header handled (R130). The filler block's slots go by the operating state that the silent appends read
(log 10). -/
def State.outboundBad (slots : List Slot) (s : State) : State :=
  let s1 := (s.raise .headerCrc (.port .core) none).advanceSeq
  let s2 := if s1.ports.timerRunning then s1.lostPeriod else s1
  let s3 := if s1.ports.timerRunning then s2.silentAppendAll else s2
  s3.sendRoom { seq := s1.ports.lastSeq, filler := true, slots := fillerSlots s2.unit.opState slots, packet := none }

/-- OUTBOUND_BAD_ARRIVAL (R130); not handled while the reset pin is held (R126). -/
def execOutboundBadArrival (slots : List Slot) (s : State) : Host.Outcome State Fault Refusal :=
  .next (s.whilePortsRun (State.outboundBad slots))

/-- An expiry of the block interval timer handled (R131). A stopped timer does not expire (R127; log 3). No block is transmitted on the room
port in the period. -/
def State.timerExpires (s : State) : State :=
  if s.ports.timerRunning then
    let s1 := s.advanceSeq.lostPeriod.silentAppendAll
    s1.setPorts { s1.ports with roomTx := none }
  else s

/-- BLOCK_INTERVAL_TIMER_EXPIRY (R131). -/
def execBlockIntervalTimerExpiry (s : State) : Host.Outcome State Fault Refusal := .next s.timerExpires

end Sys2Proof.Machine
end

