-- ==== Sys2Proof/Machine/Inbound.lean ====
section
/-! DEFINITION. The inbound side: INBOUND_BLOCK_TRANSMIT with the inbound window arbiter (R151, R158, R159), the processing of an inbound link block with what comes between its channel blocks (R49, R112, R160), and the rows ROOM_SILENCE_ADVANCE and ROOM_SILENCE (R134), INBOUND_GOOD_ARRIVAL (R135) and INBOUND_BAD_ARRIVAL (R138). -/

namespace Sys2Proof.Machine

/-! ### The inbound window arbiter (R151, R158, R159) -/

/-- The forward source offers a packet (R158). -/
def Control.forwardOffers (c : Control) : Bool := !c.forward.isEmpty

/-- The own source offers a packet (R158). -/
def Control.ownOffers (c : Control) : Bool := !c.replies.isEmpty || !c.notices.isEmpty || c.streamer != .idle

/-- The other source. -/
def Source.other : Source → Source
  | .forward => .own
  | .own => .forward

/-- The source granted at a decision, and the last contention winner after it (R159). -/
def Control.decide (c : Control) : Option Source × Source :=
  match c.forwardOffers, c.ownOffers with
  | true, true => (some c.winner.other, c.winner.other)
  | true, false => (some .forward, c.winner)
  | false, true => (some .own, c.winner)
  | false, false => (none, c.winner)

/-- The grant of the forward source: its head leaves, with a fresh CRC (R159). -/
def State.grantForward (s : State) : Option (List Byte) × State :=
  match s.control.forward with
  | [] => (none, s)
  | p :: rest => (some (withCrc p), s.setControl { s.control with forward := rest })

/-- The set a readback reads of a path record at a grant (R151). -/
def ReadSet.of (x : ReadSet) (r : PathRecord) : SetId :=
  match x with
  | .live => r.live
  | .background => r.background

/-- The partition set a readback reads at a grant (R151). -/
def State.readbackSource (s : State) (rb : Readback) : CoeffSet :=
  let r := s.path rb.path
  match r.partitionAt rb.next with
  | none => CoeffSet.zero
  | some n => s.coeffs n (rb.set.of r)

/-- The grant of the streamer while STREAMING: one DATA packet, and the end of the readback with the last one (R151). -/
def State.grantData (s : State) (rb : Readback) : List Byte × State :=
  let source := s.readbackSource rb
  let last := decide (rb.remaining ≤ 1)
  let s1 := if source.upset then s.raise .coeffParity (.path rb.path rb.next) none else s
  let s2 :=
    if last then (s1.setStreamer .idle).finishReadback rb
    else s1.setStreamer (.streaming { rb with next := rb.next + 1, remaining := rb.remaining - 1 })
  (rb.dataBody last source.read, s2)

/-- The grant of the own source: the head of the replies, else of the notices, else the streamer's packet (R151, R152, R158). -/
def State.grantOwn (s : State) : Option (List Byte) × State :=
  match s.control.replies, s.control.notices, s.control.streamer with
  | r :: rest, _, _ => (some (withCrc r.body), s.setControl { s.control with replies := rest })
  | [], n :: rest, _ => (some (withCrc n.body), s.setControl { s.control with notices := rest })
  | [], [], .streaming rb => (some (withCrc (s.grantData rb).1), (s.grantData rb).2)
  | [], [], .closing rb => (some (withCrc rb.abortedBody), s.setStreamer .idle)
  | [], [], .idle => (none, s)

/-- The arbiter's grant at one transmission: the packet for the window, none where neither source offers one (R159). -/
def State.arbitrate (s : State) : Option (List Byte) × State :=
  let d := s.control.decide
  let s1 := s.setControl { s.control with winner := d.2 }
  match d.1 with
  | none => (none, s1)
  | some .forward => s1.grantForward
  | some .own => s1.grantOwn

/-- The sending of the next waiting block begins, with its window filled (R158, R159); nothing when no block waits (log 3). -/
def State.transmit (s : State) : State :=
  match s.ports.coreLine with
  | [] => s
  | b :: rest =>
    let granted := s.arbitrate
    let s1 := granted.2
    s1.setPorts
      { s1.ports with coreLine := rest, coreTx := some { seq := b.seq, filler := b.filler, slots := b.slots, packet := granted.1 } }

/-- INBOUND_BLOCK_TRANSMIT. Nothing is sent while the reset pin is held (R126). -/
def execInboundBlockTransmit (s : State) : Host.Outcome State Fault Refusal := .next (s.whilePortsRun State.transmit)

/-! ### The processing of an inbound link block (R31, R49, R112, R160) -/

/-- What comes between two channel blocks of one inbound link block, each as the row of its name has it (R49, R112; log 30). -/
def State.takeInterlude (s : State) : Interlude → State
  | .command code tag payload => s.whilePortsRun fun s => s.takeCommand code tag payload
  | .outboundGood seq flags slots window stepFirst => s.whilePortsRun (State.outboundGood seq flags slots window stepFirst)
  | .outboundBad slots => s.whilePortsRun (State.outboundBad slots)
  | .timerExpiry => s.timerExpires
  | .seedStep => s.takeSeedStep
  | .transmit => s.whilePortsRun State.transmit

/-- The interludes that stand before channel `c`'s block, in their order. -/
def State.takeInterludes (s : State) (between : List (Nat × Interlude)) (c : Nat) : State :=
  (between.filter fun x => x.1 == c).foldl (fun s x => s.takeInterlude x.2) s

/-- One channel's turn in an inbound link block: the interludes before its block, and its block. -/
def State.channelTurn (op : OpState) (action : SafeAction) (arrived : List Slot) (between : List (Nat × Interlude)) (acc : List Slot × State)
    (c : Nat) : List Slot × State :=
  State.channelBlock op action arrived (acc.1, acc.2.takeInterludes between c) c

/-- The processing of an inbound link block's slots by the capture channels, in ascending order (log 9), with what comes between their blocks.
The operating state and the safe action are read once, when the processing begins (R160). -/
def State.processSlots (s : State) (between : List (Nat × Interlude)) (slots : List Slot) : List Slot × State :=
  (List.range Config.numChannels).foldl (State.channelTurn s.unit.opState s.unit.safeAction slots between) (slots, s)

/-- A block that waits for the core port's line, behind those that wait already (R137). -/
def State.queueForCore (s : State) (b : InboundBlock) : State := s.setPorts { s.ports with coreLine := s.ports.coreLine ++ [b] }

/-- An inbound filler block built on some slots, processed by the capture channels and queued for the core port (R137). It takes its number
once its channel blocks are done, so after a RESET FULL between two of them its number is the one after 255, which is 0 (log 30). -/
def State.sendFiller (s : State) (between : List (Nat × Interlude)) (slots : List Slot) : State :=
  let done := s.processSlots between slots
  let s1 := done.2
  let seq := s1.ports.inTxSeq + 1
  (s1.setPorts { s1.ports with inTxSeq := seq }).queueForCore { seq := seq, filler := true, slots := done.1 }

/-- The silent slots of an inbound filler block. -/
def silentSlots : List Slot := List.replicate Config.inSlots silence

/-! ### The room-silence count (R134) -/

/-- The 48th mark in a row without a good inbound header: the origination flag turns on, the skip mark clears, and ROOM_SILENCE is raised when
fault arming is set (R134, R138, R142). -/
def State.roomFallsSilent (s : State) : State :=
  let s1 := s.setPorts { s.ports with roomSilence := 48, origination := true, skip := false }
  if s.ports.armed then s1.raise .roomSilence (.port .room) none else s1

/-- An origination: a filler block, or none where the skip mark is set, which it clears (R137, R138). -/
def State.originate (s : State) (between : List (Nat × Interlude)) : State :=
  if s.ports.skip then s.setPorts { s.ports with skip := false } else s.sendFiller between silentSlots

/-- What a block period mark does to the room-silence count and to origination (R134). -/
def State.roomAdvance (s : State) (between : List (Nat × Interlude)) : State :=
  let s1 :=
    if s.ports.roomSilence + 1 = Config.silenceLimit then s.roomFallsSilent
    else if s.ports.roomSilence < Config.silenceLimit then s.setPorts { s.ports with roomSilence := s.ports.roomSilence + 1 }
    else s
  if s1.ports.origination then s1.originate between else s1

/-- The advance of a mark taken: of a mark already made, or of the next one ahead of it (R129, R134; log 4). -/
def State.takeRoomMark (s : State) (between : List (Nat × Interlude)) : State :=
  if 0 < s.ports.roomMarks then (s.setPorts { s.ports with roomMarks := s.ports.roomMarks - 1 }).roomAdvance between
  else if s.ports.timerRunning ∧ s.ports.roomEarly = false then (s.setPorts { s.ports with roomEarly := true }).roomAdvance between
  else s

/-- ROOM_SILENCE_ADVANCE (R134). Without a mark to advance by nothing comes about (log 3, log 4). -/
def execRoomSilenceAdvance (s : State) (between : List (Nat × Interlude) := []) : Host.Outcome State Fault Refusal :=
  .next (s.takeRoomMark between)

/-- ROOM_SILENCE: the advance that brings the count from 47 to 48 (R134). It does not come about unless the count is 47 (log 2, log 3). -/
def execRoomSilence (s : State) (between : List (Nat × Interlude) := []) : Host.Outcome State Fault Refusal :=
  .next (if s.ports.roomSilence = 47 then s.takeRoomMark between else s)

/-! ### Inbound arrivals (R135, R136, R138) -/

/-- The examination of an inbound control packet: into the forward FIFO, or FORWARD_OVERFLOW, or PACKET_ERROR (R136). -/
def State.forwardPacket (s : State) (flags : Byte) (window : List Byte) : State :=
  if presentFlag flags then
    match readInbound window with
    | none => s.raise .packetError (.port .room) none
    | some p =>
      if s.control.forward.length < Config.forwardCapacity then s.setControl { s.control with forward := s.control.forward ++ [p] }
      else s.raise .forwardOverflow (.port .room) none
  else s

/-- An inbound block with a good header handled (R135). It keeps its number, and the inbound transmit sequence number takes it, after a
RESET FULL between its channel blocks too (log 30). -/
def State.inboundGood (seq flags : Byte) (slots : List Slot) (window : List Byte) (between : List (Nat × Interlude)) (s : State) : State :=
  let s1 := s.setPorts { s.ports with roomSilence := 0, origination := false, skip := false }
  let done := s1.processSlots between slots
  let s2 := done.2.forwardPacket flags window
  (s2.setPorts { s2.ports with inTxSeq := seq }).queueForCore { seq := seq, filler := fillerFlag flags, slots := done.1 }

/-- INBOUND_GOOD_ARRIVAL (R135); not handled while the reset pin is held (R126). -/
def execInboundGoodArrival (seq flags : Byte) (slots : List Slot) (window : List Byte) (s : State) (between : List (Nat × Interlude) := []) :
    Host.Outcome State Fault Refusal :=
  .next (s.whilePortsRun (State.inboundGood seq flags slots window between))

/-- The slots of the filler block that replaces a damaged inbound block (R138). -/
def replacementSlots (op : OpState) (slots : List Slot) : List Slot :=
  match op with
  | .bypass => slots
  | .offline => silentSlots
  | .run => silentSlots
  | .safe => silentSlots

/-- An inbound block with a bad header handled (R138). -/
def State.inboundBad (slots : List Slot) (between : List (Nat × Interlude)) (s : State) : State :=
  let s1 := s.raise .headerCrc (.port .room) none
  let s2 := if s1.ports.origination then s1.setPorts { s1.ports with skip := true } else s1
  s2.sendFiller between (replacementSlots s2.unit.opState slots)

/-- INBOUND_BAD_ARRIVAL (R138); not handled while the reset pin is held (R126). -/
def execInboundBadArrival (slots : List Slot) (s : State) (between : List (Nat × Interlude) := []) : Host.Outcome State Fault Refusal :=
  .next (s.whilePortsRun (State.inboundBad slots between))


end Sys2Proof.Machine
end

