-- ==== Sys2Proof/Machine/Dispatch.lean ====
section
/-! DEFINITION. The meaning of each row: one arm per constructor of Instr. -/

namespace Sys2Proof.Machine

def exec (i : Instr) (s : State) : Host.Outcome State Fault Refusal :=
  match i with
  | .powerOn => Sys2Proof.Machine.execPowerOn s
  | .resetPinAssert => Sys2Proof.Machine.execResetPinAssert s
  | .resetPin => Sys2Proof.Machine.execResetPin s
  | .outboundGoodArrival seq flags slots window stepFirst => Sys2Proof.Machine.execOutboundGoodArrival seq flags slots window s stepFirst
  | .outboundBadArrival slots => Sys2Proof.Machine.execOutboundBadArrival slots s
  | .blockIntervalTimerExpiry => Sys2Proof.Machine.execBlockIntervalTimerExpiry s
  | .lockAcquired => Sys2Proof.Machine.execLockAcquired s
  | .lockLoss => Sys2Proof.Machine.execLockLoss s
  | .coreSilence => Sys2Proof.Machine.execCoreSilence s
  | .roomSilenceAdvance between => Sys2Proof.Machine.execRoomSilenceAdvance s between
  | .roomSilence between => Sys2Proof.Machine.execRoomSilence s between
  | .inboundGoodArrival seq flags slots window between => Sys2Proof.Machine.execInboundGoodArrival seq flags slots window s between
  | .inboundBadArrival slots between => Sys2Proof.Machine.execInboundBadArrival slots s between
  | .inboundBlockTransmit => Sys2Proof.Machine.execInboundBlockTransmit s
  | .seedStep => Sys2Proof.Machine.execSeedStep s
  | .windowEnd channel capture live background => Sys2Proof.Machine.execWindowEnd channel capture live background s
  | .captureClip channel => Sys2Proof.Machine.execCaptureClip channel s
  | .activityHangoverExpiry reference => Sys2Proof.Machine.execActivityHangoverExpiry reference s
  | .nearHangoverExpiry channel => Sys2Proof.Machine.execNearHangoverExpiry channel s
  | .allocatePath tag channel reference length step => Sys2Proof.Machine.execAllocatePath tag channel reference length step s
  | .releasePath tag path => Sys2Proof.Machine.execReleasePath tag path s
  | .resizePath tag path length => Sys2Proof.Machine.execResizePath tag path length s
  | .setStep tag path step => Sys2Proof.Machine.execSetStep tag path step s
  | .readPathRecord tag path => Sys2Proof.Machine.execReadPathRecord tag path s
  | .readPool tag => Sys2Proof.Machine.execReadPool tag s
  | .readChain tag selector start count => Sys2Proof.Machine.execReadChain tag selector start count s
  | .writeChannel tag channel slot mode => Sys2Proof.Machine.execWriteChannel tag channel slot mode s
  | .readChannel tag channel => Sys2Proof.Machine.execReadChannel tag channel s
  | .writeReference tag reference slot bulk depth threshold hangover => Sys2Proof.Machine.execWriteReference tag reference slot bulk depth threshold hangover s
  | .readReference tag reference => Sys2Proof.Machine.execReadReference tag reference s
  | .freezeChannel tag channel value => Sys2Proof.Machine.execFreezeChannel tag channel value s
  | .writeCoeff tag path index taps => Sys2Proof.Machine.execWriteCoeff tag path index taps s
  | .writeComparison tag window promoteMargin promoteCount divergenceMargin divergenceCount reseedLimit threshold => Sys2Proof.Machine.execWriteComparison tag window promoteMargin promoteCount divergenceMargin divergenceCount reseedLimit threshold s
  | .promoteChannel tag channel => Sys2Proof.Machine.execPromoteChannel tag channel s
  | .readChannelStats tag channel => Sys2Proof.Machine.execReadChannelStats tag channel s
  | .readSeedQueue tag start count => Sys2Proof.Machine.execReadSeedQueue tag start count s
  | .writeDetector tag channel nearThreshold echoMargin enterDebounce nearHangover => Sys2Proof.Machine.execWriteDetector tag channel nearThreshold echoMargin enterDebounce nearHangover s
  | .writeDecision tag bank entry control mask want target => Sys2Proof.Machine.execWriteDecision tag bank entry control mask want target s
  | .readDecision tag bank entry => Sys2Proof.Machine.execReadDecision tag bank entry s
  | .selectDecisionBank tag bank => Sys2Proof.Machine.execSelectDecisionBank tag bank s
  | .writeSuppressor tag channel attack release offset => Sys2Proof.Machine.execWriteSuppressor tag channel attack release offset s
  | .status tag => Sys2Proof.Machine.execStatus tag s
  | .readPath tag path set first count => Sys2Proof.Machine.execReadPath tag path set first count s
  | .abortRead tag => Sys2Proof.Machine.execAbortRead tag s
  | .setNotice tag fault state path => Sys2Proof.Machine.execSetNotice tag fault state path s
  | .setMode tag mode => Sys2Proof.Machine.execSetMode tag mode s
  | .readFaults tag => Sys2Proof.Machine.execReadFaults tag s
  | .clearFaults tag classes => Sys2Proof.Machine.execClearFaults tag classes s
  | .writeFaultPolicy tag masks severities => Sys2Proof.Machine.execWriteFaultPolicy tag masks severities s
  | .setSafeAction tag action => Sys2Proof.Machine.execSetSafeAction tag action s
  | .resetFull tag => Sys2Proof.Machine.execResetFull tag s
  | .resetAdaptation tag => Sys2Proof.Machine.execResetAdaptation tag s

end Sys2Proof.Machine
end

