-- ==== Sys2Proof/Machine/Step.lean ====
section
/-! DEFINITION. One step: the row at the front of the queue is carried out; on an empty queue the part idles (log 1). -/

namespace Sys2Proof.Machine

/-- The row at the front of the queue on the state with the queue's rest; an empty queue leaves the state as it is (log 1). -/
def step (s : State) : Host.Outcome State Fault Refusal :=
  match s.pending with
  | [] => .next s
  | c :: rest => exec c (s.setPending rest)

/-- The state with the row that a word of the table's bits spells in front of its queue; no word spells one (log 29). -/
def State.withFetchWord (s : State) (nbits w : Nat) : State :=
  match decodeTableWord nbits w with
  | none => s
  | some c => s.setPending (c :: s.pending)

end Sys2Proof.Machine
end

