-- ==== Sys2Proof/Safety.lean ====
section
/-! DEFINITION. What the spec says of every state of the part: the laws that each step keeps. Each is a property of a state; that every step keeps it, and that the reset state has it, is stated in Certificates/Slice0/Obligations.lean. -/

namespace Sys2Proof.Safety

open Sys2Proof.Machine

/-- The tables have the sizes of spec/00 section 4, every history 512 blocks, and the stored partitions their canonical form. -/
def TablesSized (s : State) : Prop :=
  s.modulators.length = 8 ∧ s.references.length = 8 ∧ s.histories.length = 8 ∧ s.channels.length = 24 ∧ s.paths.length = 64 ∧
    s.decision.bank0.length = 16 ∧ s.decision.bank1.length = 16 ∧ (∀ h ∈ s.histories, h.length = 512) ∧ s.pool.cells.wf = true

/-- The three packet queues hold no more than R136, R147 and R155 allow. -/
def QueuesBounded (s : State) : Prop :=
  s.control.replies.length ≤ 16 ∧ s.control.notices.length ≤ 8 ∧ s.control.forward.length ≤ 8

/-- Whenever the first-fault record is occupied, the status of the class it names is set; an empty record has its multiple flag clear (R167). -/
def FaultLogSound (u : FaultUnit) : Prop :=
  match u.record with
  | some r => u.isSet r.cls = true
  | none => u.multiple = false

/-- An UNUSED record holds the UNUSED values (R6). -/
def UnusedIsBlank (s : State) : Prop := ∀ r ∈ s.paths, r.state = .unused → r = PathRecord.unused

/-- The pool law: every partition lies exactly once in the free list or in the chain of one path (R2, R11). -/
def PoolLaw (s : State) : Prop := (s.pool.free ++ s.paths.flatMap PathRecord.chain).Perm (List.range' 0 6144)

/-- The alignment limit: the length of a path plus the bulk delay of its reference is at most 512, and the length at most 448 (R6, R44). -/
def AlignmentLaw (s : State) : Prop :=
  ∀ r ∈ s.paths, r.length ≤ 448 ∧ ∀ k, r.reference = some k → r.length + (s.reference k).bulk ≤ 512

/-- The laws of the path table and the pool, with the table's size. -/
def PoolSound (s : State) : Prop := s.paths.length = 64 ∧ UnusedIsBlank s ∧ PoolLaw s ∧ AlignmentLaw s

/-- No two channels name the same inbound slot, and no two references the same outbound slot (R26). -/
def SlotsDistinct (s : State) : Prop :=
  (∀ i < 24, ∀ j < 24, i ≠ j → (s.channel i).slot ≠ none → (s.channel i).slot ≠ (s.channel j).slot) ∧
    (∀ i < 8, ∀ j < 8, i ≠ j → (s.reference i).slot ≠ none → (s.reference i).slot ≠ (s.reference j).slot)

/-- The lock's state agrees with its counts (R139, R140). -/
def LockCounts (p : Ports) : Prop :=
  match p.lock with
  | .unlocked => p.acquire = 0 ∧ p.loss = 0
  | .acquiring => 1 ≤ p.acquire ∧ p.acquire ≤ 15 ∧ p.loss = 0
  | .locked => p.acquire = 16 ∧ p.loss ≤ 2 ∧ p.armed = true

/-- The lock's counts, the silence counts with the origination flag and the skip mark, and fault arming, which is set exactly when the part
has left OFFLINE (R134, R138 to R142, R162). -/
def PortsSound (s : State) : Prop :=
  LockCounts s.ports ∧ s.ports.coreSilence ≤ 48 ∧ s.ports.roomSilence ≤ 48 ∧
    (s.ports.origination = true ↔ s.ports.roomSilence = 48) ∧ (s.ports.skip = true → s.ports.origination = true) ∧
    (s.ports.armed = true ↔ s.unit.opState ≠ .offline)

/-- A reference record in the ranges of R35. -/
def ReferenceInRange (r : Reference) : Prop :=
  (∀ k, r.slot = some k → k ≤ 15) ∧ r.bulk ≤ 127 ∧ r.depth ≤ 3 ∧ -180 ≤ r.threshold ∧ r.threshold ≤ -40 ∧ r.hangover ≤ 255 ∧
    r.hangoverCount ≤ 255

/-- A comparison state in the ranges of R67, under the comparator's parameters. -/
def ComparisonInRange (p : ComparatorParams) (m : ComparisonState) : Prop :=
  m.count < p.window ∧ m.farCount ≤ m.count ∧ m.promoteStreak ≤ 8 ∧ m.divergenceStreak ≤ 8 ∧ m.reseedCount ≤ p.reseedLimit ∧
    (∀ e, m.erle = some e → e ≤ 60) ∧ (∀ v, m.liveLevel = some v → -120 ≤ v ∧ v ≤ 0) ∧
    (∀ v, m.backgroundLevel = some v → -120 ≤ v ∧ v ≤ 0)

/-- Detector parameters and counters in the ranges of R95 and R96. -/
def DetectorInRange (d : DetectorState) : Prop :=
  6 ≤ d.nearThreshold ∧ d.nearThreshold ≤ 60 ∧ d.echoMargin ≤ 60 ∧ 1 ≤ d.enterDebounce ∧ d.enterDebounce ≤ 15 ∧ d.nearHangover ≤ 255 ∧
    d.debounce ≤ 15 ∧ d.hangover ≤ 255

/-- Suppressor fields in the ranges of R114. -/
def SuppressorInRange (p : SuppressorState) : Prop :=
  2 ≤ p.attack ∧ p.attack ≤ 24 ∧ 1 ≤ p.release ∧ p.release ≤ 12 ∧ -12 ≤ p.offset ∧ p.offset ≤ 12 ∧ -90 ≤ p.gain ∧ p.gain ≤ 0 ∧
    -480 ≤ p.floor ∧ p.floor ≤ 0 ∧ p.noisePos ≤ 8388606

/-- A decision entry in the ranges of R103. -/
def EntryInRange (e : DecisionEntry) : Prop := e.stepScale ≤ 3 ∧ e.target ≤ 45 ∧ e.target % 3 = 0 ∧ e.want &&& ~~~e.mask = 0

/-- A channel record in the ranges of R25, R67, R95, R96 and R114. -/
def ChannelInRange (p : ComparatorParams) (ch : Channel) : Prop :=
  (∀ k, ch.slot = some k → k ≤ 31) ∧ ch.clipRun ≤ 32 ∧ ComparisonInRange p ch.comparison ∧ DetectorInRange ch.detector ∧
    SuppressorInRange ch.suppressor

/-- Every field with a range is in it: references, sweep positions, channels, comparator parameters, decision entries, step exponents. -/
def FieldsInRange (s : State) : Prop :=
  s.comparator.inRange = true ∧ (∀ r ∈ s.references, ReferenceInRange r) ∧ (∀ m ∈ s.modulators, m.sweep ≤ 1874) ∧
    (∀ ch ∈ s.channels, ChannelInRange s.comparator ch) ∧ (∀ e ∈ s.decision.bank0, EntryInRange e) ∧
    (∀ e ∈ s.decision.bank1, EntryInRange e) ∧ s.decision.active ≤ 1 ∧ (∀ r ∈ s.paths, 1 ≤ r.step ∧ r.step ≤ 10)

/-! ### The path lists, the seed queue, readbacks and pending promotes -/

/-- Every path in use stands exactly once, in its owner channel's list, and a list holds paths in use of its own channel only, at most four,
on different references (R11). -/
def ListsSound (s : State) : Prop :=
  (∀ c < 24, (s.channel c).paths.Nodup ∧ (s.channel c).paths.length ≤ 4 ∧
    (∀ p ∈ (s.channel c).paths, p < 64 ∧ (s.path p).state ≠ .unused ∧ (s.path p).owner = some c) ∧
    ((s.channel c).paths.map fun p => (s.path p).reference).Nodup) ∧
  (∀ p < 64, (s.path p).state ≠ .unused → ∃ c < 24, (s.path p).owner = some c ∧ p ∈ (s.channel c).paths)

/-- The seed queue holds exactly one request for each SEEDING path and none for any other path; a request covers part of its path's chain up
to the end, is not complete, and only the one in service has begun (R82, R83). -/
def QueueSound (s : State) : Prop :=
  (s.seed.queue.map SeedRequest.path).Nodup ∧
    (∀ p < 64, (s.path p).state = .seeding ↔ ∃ q ∈ s.seed.queue, q.path = p) ∧
    (∀ q ∈ s.seed.queue, q.path < 64 ∧ q.first + q.count = (s.path q.path).length ∧ q.done < q.count) ∧
    (∀ q ∈ s.seed.queue.drop 1, q.done = 0)

/-- A readback in progress reads a path in use, within its chain, and a BACKGROUND one makes its path read-held; no other path is (R9,
R149, R150). -/
def ReadbackSound (s : State) : Prop :=
  (∀ rb, s.control.streamer = .streaming rb →
    rb.path < 64 ∧ (s.path rb.path).state ≠ .unused ∧ 1 ≤ rb.remaining ∧ rb.next + rb.remaining ≤ (s.path rb.path).length) ∧
  (∀ p < 64, (s.path p).readHeld = true ↔ ∃ rb, s.control.streamer = .streaming rb ∧ rb.set = .background ∧ rb.path = p)

/-- A pending promote stands only while a readback of the live set of one of the channel's paths is in progress, and every path of the channel
is READY then (R74, R75). -/
def PendingSound (s : State) : Prop :=
  ∀ c < 24, (s.channel c).comparison.pendingPromote = true →
    (s.channel c).paths.any s.liveReadbackOf = true ∧ ∀ p ∈ (s.channel c).paths, (s.path p).state = .ready

/-- The laws of paths, lists, queue, readback and pending promotes together. A result other than NONE comes only from a block that finds no path
of its channel SEEDING, so a promotion or a reseed never meets one (R69, R70, R74, R76). -/
def PathsSound (s : State) : Prop :=
  s.channels.length = 24 ∧ s.paths.length = 64 ∧ UnusedIsBlank s ∧ (∀ r ∈ s.paths, r.state ≠ .unused → 1 ≤ r.length) ∧
    8 ≤ s.comparator.window ∧ 1 ≤ s.comparator.promoteCount ∧ ListsSound s ∧ QueueSound s ∧ ReadbackSound s ∧ PendingSound s

/-! ### Words of the statements -/

/-- The part can take a command: its ports run and its reply queue has room (R126, R144). -/
def Accepting (s : State) : Prop := s.ports.pinHeld = false ∧ s.control.replies.length < 16

/-- The state with one more reply at the tail of the reply queue (R145, R147). -/
def replied (s : State) (tag code : Byte) (outcome : ReplyCode) (payload : List Byte) : State :=
  { s with
    control :=
      { s.control with
        replies := s.control.replies ++ [{ tag := tag, code := code, outcome := outcome, payload := payload }] } }

/-- A block period marked: its seed step granted, and its room-silence advance due unless taken ahead of the mark (R85, R129, R134; the marks
are log 4). -/
def periodMarked (s : State) : State :=
  { s with
    seed := { s.seed with granted := true }
    ports := { s.ports with roomMarks := if s.ports.roomEarly then s.ports.roomMarks else s.ports.roomMarks + 1, roomEarly := false } }

/-- The state in which a good outbound block is handled: its period marked, and the period's seed step taken where it comes before the handling
(R85, R129; log 4). -/
def periodOpened (s : State) (stepFirst : Bool) : State := if stepFirst then (periodMarked s).takeSeedStep else periodMarked s

/-- A good outbound header judged in an opened period: the lock, the number, the core-silence count and the timer (R128, R129, R139). -/
def headerJudged (s : State) (seq : Byte) : State :=
  let judged := s.lockSees (if seq = s.ports.lastSeq + 1 then .inSequence else .gap)
  { judged with ports := { judged.ports with lastSeq := seq, coreSilence := 0, timerRunning := true } }

/-- The slots of a good outbound block, and the state, after the taps of the references one after another (R41; the ascending order is log 9,
the operating state they read log 10). -/
def blockTapped (s : State) (seq : Byte) (slots : List Slot) : List Slot × State :=
  (List.range 8).foldl (State.tapReference (headerJudged s seq).unit.opState) (slots, headerJudged s seq)

/-- The state after a good outbound block is handled in an opened period, a consumed command not yet taken, field by field: the ports, what the
taps and the raise for a bad packet leave, and everything else as it was (R41, R128, R129, R132, R139). -/
def arrivalHandled (s : State) (seq flags : Byte) (slots : List Slot) (window : List Byte) : State :=
  let sighted := (s.lockSees (if seq = s.ports.lastSeq + 1 then .inSequence else .gap)).ports
  let tapped := blockTapped s seq slots
  let told := if (examine flags window).bad then tapped.2.raise .packetError (.port .core) none else tapped.2
  { s with
    ports :=
      { s.ports with
        lock := sighted.lock
        acquire := sighted.acquire
        loss := sighted.loss
        armed := sighted.armed
        lastSeq := seq
        coreSilence := 0
        timerRunning := true
        roomTx := some { seq := seq, filler := flags.getLsbD 7, slots := tapped.1, packet := (examine flags window).passed } }
    references := tapped.2.references
    histories := tapped.2.histories
    modulators := told.modulators
    unit := told.unit
    control := told.control }

/-- What a comparison state reset leaves of a comparison state, with the pending promote given (R68). -/
def comparisonReset (m : ComparisonState) (pending : Bool) : ComparisonState :=
  { count := 0, captureSum := 0, liveSum := 0, backgroundSum := 0, farCount := 0, disturbed := false, promoteStreak := 0,
    divergenceStreak := 0, reseedCount := m.reseedCount, pendingPromote := pending, erle := none, liveLevel := none,
    backgroundLevel := none, flagB := false, flagU := true }

/-- The streamer after the abort of a readback of a path that passes a test (R152). -/
def abortedWhere (test : Readback → Bool) : Streamer → Streamer
  | .streaming rb => if test rb then .closing rb else .streaming rb
  | .idle => .idle
  | .closing rb => .closing rb

/-- Some class is unmasked and grave and has its status set (R162, R163). -/
def GraveStands (u : FaultUnit) : Prop := ∃ c : FaultClass, u.isSet c = true ∧ u.grave c = true ∧ u.masked c = false

/-- The row reaches the part over its ports: an arrival, the lock's judgement of a good header, a transmission, or a command (R126, R144). -/
def OverThePorts (i : Instr) : Prop :=
  (commandOf i).isSome = true ∨ i = .lockAcquired ∨ i = .inboundBlockTransmit ∨
    (∃ seq flags slots window stepFirst, i = .outboundGoodArrival seq flags slots window stepFirst) ∨
    (∃ slots, i = .outboundBadArrival slots) ∨ (∃ seq flags slots window between, i = .inboundGoodArrival seq flags slots window between) ∨
    ∃ slots between, i = .inboundBadArrival slots between

/-- The slot of one link direction is the same in two lists of slots wherever a set of numbers does not name it. -/
def SameElsewhere (named : Nat → Prop) (before after : List Slot) : Prop :=
  after.length = before.length ∧ ∀ k, ¬named k → after[k]? = before[k]?

end Sys2Proof.Safety
end

