-- ==== Sys2Proof/Certificates/Slice0/Obligations.lean ====
section
/-! DEFINITION. The statements for the provers. Each names the rules of spec/ it rests on; OBLIGATIONS.json lists them. -/

open Sys2Proof Sys2Proof.Machine Sys2Proof.Safety

/-! ### The queue, and that no row stops -/

/-- A step carries out the row at the front of the queue on the state with the queue's rest. The second clause, that an empty queue leaves the
state as it is, is the model's choice (log 1). No row stops: every row leads to a next state in every state, and leaves the rows that wait
behind it (R144, spec/95). -/
def Obligations.StepTakesFrontRow : Prop :=
  ((∀ (s : State) (c : Instr) (rest : List Instr), step { s with pending := c :: rest } = exec c { s with pending := rest }) ∧
    ∀ s : State, s.pending = [] → step s = .next s) ∧
  (∀ (i : Instr) (s : State), ∃ t, exec i s = .next t ∧ t.pending = s.pending)

/-! ### Resets (R126, R157, R170, R171, and each rule's reset column) -/

/-- POWER_ON leaves every piece of state at the value its rule gives; written out here for every table, queue, count and flag. The factory
policy: bank 0 entry by entry as every reset but RESET ADAPTATION loads it, and what it makes of each set of flags (R104, R105, R170). -/
def Obligations.PowerOnResetValues : Prop :=
  ((∀ s : State, exec .powerOn s = .next { State.reset with pending := s.pending }) ∧
    State.reset.pool.free = List.range' 0 6144 ∧
    (∀ n, State.reset.pool.cells.read n =
      { a := { taps := List.replicate 64 0, upset := false }, b := { taps := List.replicate 64 0, upset := false } }) ∧
    State.reset.paths =
      List.replicate 64 { state := .unused, owner := none, reference := none, chain := [], live := .a, step := 6, readHeld := false } ∧
    State.reset.references =
      List.replicate 8
        { slot := none, bulk := 0, depth := 0, threshold := -120, hangover := 40, active := false, hangoverCount := 0, parityBad := false } ∧
    State.reset.histories = List.replicate 8 (List.replicate 512 (List.replicate 64 0)) ∧
    State.reset.modulators = List.replicate 8 { sweep := 0, lastIn := 0, lastOut := 0 } ∧
    State.reset.channels =
      (List.range 24).map (fun c =>
        { slot := none, mode := .pass, parityBad := false, paths := [], clipRun := 0, frozen := false,
          comparison :=
            { count := 0, captureSum := 0, liveSum := 0, backgroundSum := 0, farCount := 0, disturbed := false, promoteStreak := 0,
              divergenceStreak := 0, reseedCount := 0, pendingPromote := false, erle := none, liveLevel := none, backgroundLevel := none,
              flagB := false, flagU := true }
          detector :=
            { nearThreshold := 18, echoMargin := 24, enterDebounce := 3, nearHangover := 60, debounce := 0, hangover := 0,
              nearActive := false }
          last := { talk := .quiet, flags := { f := false, n := false, d := false, c := false, b := false, s := false, u := false } }
          suppressor := { attack := 6, release := 1, offset := 0, gain := 0, floor := -480, noisePos := 349525 * c } }) ∧
    State.reset.comparator =
      { window := 16, promoteMargin := 2, promoteCount := 2, divergenceMargin := 12, divergenceCount := 2, reseedLimit := 6,
        threshold := 12 } ∧
    State.reset.seed.queue = [] ∧ State.reset.decision.active = 0 ∧
    State.reset.decision.bank1 =
      List.replicate 16
        { valid := false, mask := 0, want := 0, adapt := false, stepScale := 0, target := 0, fill := false, parityBad := false } ∧
    State.reset.control =
      { replies := [], notices := [], forward := [], streamer := .idle, winner := .forward, enableFault := true, enableState := true,
        enablePath := false } ∧
    State.reset.unit =
      { opState := .offline, safeAction := .pass, cause := .power, status := 0, masks := 0b000100000000, severities := 0b110000001100,
        record := none, multiple := false } ∧
    State.reset.ports.lock = .unlocked ∧ State.reset.ports.acquire = 0 ∧ State.reset.ports.loss = 0 ∧
    State.reset.ports.timerRunning = false ∧ State.reset.ports.lastSeq = 255 ∧ State.reset.ports.coreSilence = 0 ∧
    State.reset.ports.roomSilence = 0 ∧ State.reset.ports.origination = false ∧ State.reset.ports.skip = false ∧
    State.reset.ports.inTxSeq = 255 ∧ State.reset.ports.armed = false) ∧
  (State.reset.decision.bank0 =
      [{ valid := true, mask := 0b0001000, want := 0b0001000, adapt := false, stepScale := 0, target := 0, fill := false, parityBad := false },
        { valid := true, mask := 0b0000010, want := 0b0000010, adapt := false, stepScale := 0, target := 6, fill := false, parityBad := false },
        { valid := true, mask := 0b1000001, want := 0b1000001, adapt := true, stepScale := 0, target := 0, fill := false, parityBad := false },
        { valid := true, mask := 0b0010000, want := 0b0010000, adapt := false, stepScale := 0, target := 6, fill := false, parityBad := false },
        { valid := true, mask := 0b1100000, want := 0b1000000, adapt := true, stepScale := 0, target := 18, fill := true, parityBad := false },
        { valid := true, mask := 0b1000000, want := 0b0000000, adapt := false, stepScale := 0, target := 0, fill := false, parityBad := false }] ++
      List.replicate 10
        { valid := false, mask := 0, want := 0, adapt := false, stepScale := 0, target := 0, fill := false, parityBad := false } ∧
    ∀ g : TalkFlags,
      (matchEntries g 0 State.reset.decision.bank0).1 =
        if g.c then { adapt := false, stepScale := 0, target := 0, fill := false }
        else if g.s then { adapt := false, stepScale := 0, target := 6, fill := false }
        else if g.u && g.f then { adapt := true, stepScale := 0, target := 0, fill := false }
        else if g.d then { adapt := false, stepScale := 0, target := 6, fill := false }
        else if g.f && !g.n then { adapt := true, stepScale := 0, target := 18, fill := true }
        else { adapt := false, stepScale := 0, target := 0, fill := false })

/-- The reset pin: while it is held both ports transmit nothing, and its release resets everything but the fault statuses, the first-fault
record and the multiple flag, with cause PIN (R126, R157, R170). While the reset pin is held, no row that reaches the part over its ports
has an effect (R126). That the release has its effect in every state, a pin never held included, and that nothing but the ports stops while
the pin is held, is the model's choice (log 11). -/
def Obligations.ResetPinEffect : Prop :=
  ((∀ s : State, exec .resetPinAssert s = .next { s with ports := { s.ports with pinHeld := true, roomTx := none, coreTx := none } }) ∧
    ∀ s : State, exec .resetPin s =
      .next { State.reset with
        pending := s.pending
        unit :=
          { State.reset.unit with cause := .pin, status := s.unit.status, record := s.unit.record, multiple := s.unit.multiple } }) ∧
  (∀ (i : Instr) (s : State), s.ports.pinHeld = true → OverThePorts i → exec i s = .next s)

/-- RESET FULL: the reset values, the fault log kept, cause COMMAND, an ABORTED packet where a readback was in progress, and its own DONE
reply alone in the reply queue (R157, R170, R171). That the ports' last transmissions stand, and that an earlier ABORTED packet goes, is
the model's choice (log 12). RESET ADAPTATION: every path in use gets live set A, SEEDING, read-held no; the seed queue becomes one CLEAR
for each of them in increasing path id; every comparison state takes its reset values; a readback is aborted; the rest is kept (R91, R92).
-/
def Obligations.ResetCommandEffects : Prop :=
  (∀ (s : State) (tag : Byte), Accepting s →
    exec (.resetFull tag) s =
      .next { State.reset with
        pending := s.pending
        ports := { State.reset.ports with roomTx := s.ports.roomTx, coreTx := s.ports.coreTx }
        unit :=
          { State.reset.unit with cause := .command, status := s.unit.status, record := s.unit.record, multiple := s.unit.multiple }
        control :=
          { State.reset.control with
            replies := [{ tag := tag, code := 0x85, outcome := .done, payload := [] }]
            streamer :=
              match s.control.streamer with
              | .streaming rb => .closing rb
              | .idle => .idle
              | .closing _ => .idle } }) ∧
  (∀ (s : State) (tag : Byte), Accepting s → UnusedIsBlank s →
    exec (.resetAdaptation tag) s =
      .next (replied
        { s with
          paths := s.paths.map fun r => if r.state = .unused then r else { r with live := .a, state := .seeding, readHeld := false }
          seed :=
            { s.seed with
              queue := (List.range 64).filterMap fun p =>
                if (s.path p).state = .unused then none
                else some { path := p, kind := .clear, first := 0, count := (s.path p).chain.length, done := 0 } }
          channels := s.channels.map fun ch =>
            { ch with
              comparison :=
                { count := 0, captureSum := 0, liveSum := 0, backgroundSum := 0, farCount := 0, disturbed := false, promoteStreak := 0,
                  divergenceStreak := 0, reseedCount := 0, pendingPromote := false, erle := none, liveLevel := none,
                  backgroundLevel := none, flagB := false, flagU := true } }
          control := { s.control with streamer := abortedWhere (fun _ => true) s.control.streamer } }
        tag 0x85 .done []))

/-! ### The outbound side (R128 to R132, R139 to R142) -/

/-- A good outbound arrival whose packet the part does not consume: the period marked, its seed step before the handling where the row says
so, the lock's judgement of the header, the number, the counts, the timer, the slots and the histories as the references tap them one after
another, the block on the room port with every slot named by no reference as it arrived, the fault unit and the notices as the lock and the
taps leave them, and every other field as it was (R41, R85, R128, R129, R139). A bad packet is discarded and raises PACKET_ERROR with the
core port as subject, after the taps; its effect on the fault unit, the notices and the modulators is that raise's, written out by RaiseRule
(R132). The marks of the seed step and of the room-silence advance, and that the step that comes first does so before the lock's judgement,
are the model's (log 4), the ascending order of the references too (log 9), and that they read the operating state after the lock's judgement
(log 10). -/
def Obligations.GoodArrivalPassesBlock : Prop :=
  ∀ (s : State) (seq flags : Byte) (slots : List Slot) (window : List Byte) (stepFirst : Bool),
    s.ports.pinHeld = false → (examine flags window).consumed = none →
      let opened := periodOpened s stepFirst
      let t := arrivalHandled opened seq flags slots window
      let tapped := blockTapped opened seq slots
      exec .seedStep (periodMarked s) = .next (periodOpened s true) ∧
        exec (.outboundGoodArrival seq flags slots window stepFirst) s = .next t ∧
        SameElsewhere (fun k => ∃ r < 8, (opened.reference r).slot = some k) slots tapped.1 ∧
        ((examine flags window).bad = false →
          t.unit = tapped.2.unit ∧ t.control = tapped.2.control ∧ t.modulators = tapped.2.modulators) ∧
        ((examine flags window).bad = true →
          let told := tapped.2.raise .packetError (.port .core) none
          t.unit = told.unit ∧ t.control = told.control ∧ t.modulators = told.modulators ∧ t.unit.isSet .packetError = true) ∧
        t.control = { opened.control with notices := t.control.notices }

/-- Where an outbound arrival reads OFFLINE or BYPASS, every slot of the good block leaves as it arrived, and each trusted reference appends
its slot's samples, or silence for slot none, exactly as they arrived, with the activity test of R47 on them (R41, R45, R47, R129, R160).
The operating state read is the one after the lock has judged the header, which is the model's choice (log 10). The second clause says when
that is so: a part in OFFLINE, with any lock, but for the header that reaches the lock; a part in BYPASS, with a gap or without the lock
too, but for a gap that loses it. The period is marked first, with its seed step where that comes before the handling (log 4). -/
def Obligations.UnditheredArrivalTapsExactly : Prop :=
  (∀ (v : State) (seq flags : Byte) (slots : List Slot) (window : List Byte) (stepFirst : Bool),
    let s := periodOpened v stepFirst
    v.ports.pinHeld = false → (examine flags window).consumed = none → TablesSized s →
      let judged := s.lockSees (if seq = s.ports.lastSeq + 1 then .inSequence else .gap)
      judged.unit.opState = .offline ∨ judged.unit.opState = .bypass →
      ∃ t, exec (.outboundGoodArrival seq flags slots window stepFirst) v = .next t ∧
        t.ports.roomTx = some { seq := seq, filler := flags.getLsbD 7, slots := slots, packet := (examine flags window).passed } ∧
        ∀ r < 8, (s.reference r).parityBad = false →
          let b := match (s.reference r).slot with
            | some k => slots.getD k silence
            | none => silence
          t.history r = (b :: s.history r).take 512 ∧
            t.reference r =
              if fullSine ^ 20 * 10 ^ (s.reference r).threshold.toNat ≤ squareSum b ^ 20 * 10 ^ (-(s.reference r).threshold).toNat then
                { s.reference r with active := true, hangoverCount := (s.reference r).hangover }
              else if 0 < (s.reference r).hangoverCount then
                { s.reference r with hangoverCount := (s.reference r).hangoverCount - 1 }
              else { s.reference r with active := false }) ∧
  ∀ (s : State) (sight : LockSight),
    (s.unit.opState = .offline → ¬(s.ports.lock = .acquiring ∧ sight = .inSequence ∧ 16 ≤ s.ports.acquire + 1) →
      (s.lockSees sight).unit.opState = .offline) ∧
    (s.unit.opState = .bypass →
      s.ports.lock ≠ .locked ∨ sight = .inSequence ∨ s.ports.loss + 1 < 3 ∨ s.ports.armed = false ∨ s.unit.masked .clockUnlock = true ∨
          s.unit.isSet .clockUnlock = true ∨ s.unit.grave .clockUnlock = false ∧ s.control.notices.length < 8 →
      (s.lockSees sight).unit.opState = .bypass)

/-- The all-pass section sample by sample, the sweep position and memory after a block and after a silent append, and what the tap makes of
each reference: a dithered one puts the modulated samples in its slot and its history; an undithered one leaves its slot and appends its
samples, or silence for slot none; one read with a mismatch raises TABLE_PARITY, clears its modulator's memory and appends silence; each
with the activity test on the appended block (R40, R41, R45 to R47). That the memory is cleared at that read, whatever the operating state and the depth, is the model's
reading of R46 (log 28). -/
def Obligations.DitherModulator : Prop :=
  (∀ (a : Int) (lastIn lastOut : Sample) (x : Slot),
    (allPass a lastIn lastOut x).length = x.length ∧
      ∀ n < x.length,
        let before := if n = 0 then lastIn else x.getD (n - 1) 0
        let out := if n = 0 then lastOut else (allPass a lastIn lastOut x).getD (n - 1) 0
        (allPass a lastIn lastOut x).getD n 0 =
          limit24 (roundDiv (a * (x.getD n 0).toInt + before.toInt * 8388608 - a * out.toInt) 8388608)) ∧
  (∀ (m : Modulator) (depth : Nat) (x : Slot),
    let y := allPass (ditherCoefficient depth m.sweep) m.lastIn m.lastOut x
    m.apply depth x = (y, { sweep := (m.sweep + 1) % 1875, lastIn := x.getLastD 0, lastOut := y.getLastD 0 }) ∧
      m.skipBlock = { sweep := (m.sweep + 1) % 1875, lastIn := 0, lastOut := 0 }) ∧
  ∀ (s : State) (op : OpState) (slots : List Slot) (r : Nat), r < 8 → TablesSized s →
    let ref := s.reference r
    let tested := fun (b : Slot) =>
      if fullSine ^ 20 * 10 ^ ref.threshold.toNat ≤ squareSum b ^ 20 * 10 ^ (-ref.threshold).toNat then
        { ref with active := true, hangoverCount := ref.hangover }
      else if 0 < ref.hangoverCount then { ref with hangoverCount := ref.hangoverCount - 1 }
      else { ref with active := false }
    (∀ k, op = .run ∨ op = .safe → ref.parityBad = false → ref.slot = some k → ref.depth ≠ 0 →
      let y := (s.modulator r).apply ref.depth (slots.getD k silence)
      State.tapReference op (slots, s) r =
        (slots.set k y.1,
          { s with
            modulators := s.modulators.set r y.2
            histories := s.histories.set r ((y.1 :: s.history r).take 512)
            references := s.references.set r (tested y.1) })) ∧
    (∀ k, op = .offline ∨ op = .bypass ∨ ref.depth = 0 → ref.parityBad = false → ref.slot = some k →
      State.tapReference op (slots, s) r =
        (slots,
          { s with
            histories := s.histories.set r ((slots.getD k silence :: s.history r).take 512)
            references := s.references.set r (tested (slots.getD k silence)) })) ∧
    (ref.parityBad = false → ref.slot = none →
      State.tapReference op (slots, s) r =
        (slots,
          { s with
            histories := s.histories.set r ((silence :: s.history r).take 512)
            references := s.references.set r (tested silence) })) ∧
    (ref.parityBad = true →
      let v := s.raise .tableParity (.reference r) none
      State.tapReference op (slots, s) r =
        (slots,
          { v with
            modulators := v.modulators.set r { v.modulator r with lastIn := 0, lastOut := 0 }
            histories := s.histories.set r ((silence :: s.history r).take 512)
            references := s.references.set r (tested silence) }))

/-- The modulator's coefficient is the nearest 24-bit fraction to the tangent of half the deviation, the deviation being the depth times 10
degrees times the sine of 2 pi times the sweep position over 1875 (R45). -/
def Obligations.DitherCoefficientIsNearest : Prop :=
  ∀ depth sweep : Nat, 1 ≤ depth → depth ≤ 3 → sweep < 1875 →
    let deviation : ℝ := depth * (10 * Real.pi / 180) * Real.sin (2 * Real.pi * sweep / 1875)
    |(ditherCoefficient depth sweep : ℝ) - 8388608 * Real.tan (deviation / 2)| ≤ 1 / 2

/-- The examination of a control packet by its distance (R132). A consumed command is taken after the arrival's other work: the state in which
it is taken has the block on the room port, the lock's judgement and the number of the header, the references, histories and modulators as
the taps of this block leave them, the fault unit and the notices as the lock's judgement and the taps leave them, and every other field as
before the arrival; the block has left with every slot named by no reference as it arrived (R38, R41, R129, R133, R144). That the block is
on the room port before the command is taken is the model's order (log 21): R129 transmits it after the packet is handled. The marks of the
seed step and of the room-silence advance, and that a step that comes first does so before the lock's judgement, are the model's (log 4), the
ascending order of the references too (log 9), and that they read the operating state after the lock's judgement (log 10). -/
def Obligations.CommandPacketsHandled : Prop :=
  (∀ (flags : Byte) (window : List Byte),
    (flags.getLsbD 6 = false → examine flags window = { passed := none, consumed := none, bad := false }) ∧
      (flags.getLsbD 6 = true → readCommand window = none → examine flags window = { passed := none, consumed := none, bad := true }) ∧
      ∀ c, flags.getLsbD 6 = true → readCommand window = some c →
        (c.distance = 0 ∨ 1 ≤ c.distance ∧ c.distance ≤ 7 ∨ c.distance = 15) ∧
          (c.distance = 0 → examine flags window = { passed := none, consumed := some c, bad := false }) ∧
          (1 ≤ c.distance → c.distance ≤ 7 → examine flags window = { passed := some c.lowered, consumed := none, bad := false }) ∧
          (c.distance = 15 → examine flags window = { passed := some c.packet, consumed := some c, bad := false })) ∧
  (∀ (s : State) (seq flags : Byte) (slots : List Slot) (window : List Byte) (stepFirst : Bool) (c : CommandPacket),
    s.ports.pinHeld = false → (examine flags window).consumed = some c →
      let opened := periodOpened s stepFirst
      let handled := arrivalHandled opened seq flags slots window
      exec (.outboundGoodArrival seq flags slots window stepFirst) s = .next (handled.takeCommand c.code c.tag c.payload) ∧
        (examine flags window).bad = false ∧
        SameElsewhere (fun k => ∃ r < 8, (opened.reference r).slot = some k) slots (blockTapped opened seq slots).1 ∧
        handled.control = { opened.control with notices := handled.control.notices })

/-- A COMMAND packet put into a window is read back whole, for every distance a chain uses, tag, code and payload, and lowering its distance
gives the packet with the distance one less; no other distance reads as a good packet. A packet is read from a window only where the window
begins with the length L and the L bytes of such a packet, of kind COMMAND, with a payload of at most 200 bytes and a matching CRC; what
stands beyond L does not matter (R132, R143, R172 to R174). Bytes in which the sync pattern is not found are no arrival; where bytes 5 and 6
are not the CRC of bytes 0 to 4 the arrival is bad, and else it is good, with its number, flags byte, slots and window from their places
(R125, R173). A byte goes on the line most significant bit first and is read back from its eight bits; a link block sent bit by bit is
received as the arrival of its number, flags, slots and window, whatever follows it on the line (R172). -/
def Obligations.CommandPacketRoundTrip : Prop :=
  (∀ b : Byte,
    byteBits b =
        [b.getLsbD 7, b.getLsbD 6, b.getLsbD 5, b.getLsbD 4, b.getLsbD 3, b.getLsbD 2, b.getLsbD 1, b.getLsbD 0] ∧
      byteOfBits (byteBits b) = b) ∧
  (∀ bytes : List Byte, (lineBits bytes).length = 8 * bytes.length ∧ lineBytes (lineBits bytes) = bytes) ∧
  (∀ (bytes : List Byte) (idle : List Bool),
    (bytes.length = 3291 → receiveOutboundLine (lineBits bytes ++ idle) = receiveOutbound bytes) ∧
      (bytes.length = 6363 → receiveInboundLine (lineBits bytes ++ idle) = receiveInbound bytes)) ∧
  (∀ bytes : List Byte,
    let found := bytes.take 3 = [0xA5, 0x3C, 0x96]
    let matching := (bytes.drop 5).take 2 = [(crc (bytes.take 5)).extractLsb' 8 8, (crc (bytes.take 5)).extractLsb' 0 8]
    let outbound := slotsOf 16 (bytes.drop 7)
    let inbound := slotsOf 32 (bytes.drop 7)
    (¬found → receiveOutbound bytes = none ∧ receiveInbound bytes = none) ∧
      (found → ¬matching →
        receiveOutbound bytes = some (.outboundBadArrival outbound) ∧ receiveInbound bytes = some (.inboundBadArrival inbound [])) ∧
      (found → matching →
        receiveOutbound bytes =
            some (.outboundGoodArrival (bytes.getD 3 0) (bytes.getD 4 0) outbound ((bytes.drop 3079).take 212) false) ∧
          receiveInbound bytes =
            some (.inboundGoodArrival (bytes.getD 3 0) (bytes.getD 4 0) inbound ((bytes.drop 6151).take 212) []))) ∧
  (∀ (n : Nat) (bytes : List Byte), 192 * n ≤ bytes.length →
    (slotsOf n bytes).length = n ∧
      ∀ k < n, ((slotsOf n bytes).getD k []).length = 64 ∧
        ∀ j < 64,
          let at0 := 192 * k + 3 * j
          ((slotsOf n bytes).getD k []).getD j 0 = bytes.getD at0 0 ++ bytes.getD (at0 + 1) 0 ++ bytes.getD (at0 + 2) 0) ∧
  (∀ (window : List Byte) (c : CommandPacket),
    readCommand window = some c ↔
      (c.distance ≤ 7 ∨ c.distance = 15) ∧ c.payload.length ≤ 200 ∧
        c.packet = withCrc ([BitVec.ofNat 8 (16 + c.distance), c.tag, c.code, BitVec.ofNat 8 c.payload.length] ++ c.payload) ∧
        window.take (c.payload.length + 8) = bytes2 (c.payload.length + 6) ++ c.packet) ∧
  (∀ (b : LinkBlock) (idle : List Bool), (∀ p, b.packet = some p → p.length ≤ 210) → (∀ x ∈ b.slots, x.length = 64) →
    let flags : Byte := (if b.filler then 0x80 else 0) ||| (if b.packet.isSome then 0x40 else 0)
    (b.slots.length = 16 →
      receiveOutboundLine (b.line ++ idle) = some (.outboundGoodArrival b.seq flags b.slots (windowOf b.packet))) ∧
    (b.slots.length = 32 →
      receiveInboundLine (b.line ++ idle) = some (.inboundGoodArrival b.seq flags b.slots (windowOf b.packet) []))) ∧
  ∀ (distance : Nat) (tag code : Byte) (payload : List Byte), distance ≤ 15 → payload.length ≤ 200 →
    (distance ≤ 7 ∨ distance = 15 →
      readCommand (windowOf (some (commandPacketBytes distance tag code payload))) =
        some { distance := distance, tag := tag, code := code, payload := payload, packet := commandPacketBytes distance tag code payload }) ∧
    (8 ≤ distance → distance ≤ 14 → readCommand (windowOf (some (commandPacketBytes distance tag code payload))) = none) ∧
    (1 ≤ distance → distance ≤ 7 →
      ({ distance := distance, tag := tag, code := code, payload := payload,
         packet := commandPacketBytes distance tag code payload } : CommandPacket).lowered =
        commandPacketBytes (distance - 1) tag code payload)

/-- A command row has the effect of its command in a packet; an unknown code is refused UNKNOWN, a payload of another length LENGTH, and a
RESET of no kind RANGE (R144, R145, R171, R172). -/
def Obligations.PacketTakesItsRow : Prop :=
  (∀ (i : Instr) (code tag : Byte) (payload : List Byte) (s : State), i.wellFormed = true → commandOf i = some (code, tag, payload) →
    s.ports.pinHeld = false → exec i s = .next (s.takeCommand code tag payload)) ∧
  (∀ (s : State) (code tag : Byte) (payload : List Byte), Accepting s → commandLength code = none →
    s.takeCommand code tag payload = replied s tag code .unknown []) ∧
  (∀ (s : State) (code tag : Byte) (payload : List Byte) (n : Nat), Accepting s → commandLength code = some n → payload.length ≠ n →
    s.takeCommand code tag payload = replied s tag code .length []) ∧
  ∀ (s : State) (tag kind : Byte), Accepting s → 1 < kind.toNat → s.takeCommand 0x85 tag [kind] = replied s tag 0x85 .range []

/-- For every command row, the row read from the code and payload that the core sends for it is that row, with every operand at every value
(R145, R172). -/
def Obligations.CommandRowsRoundTrip : Prop :=
  ∀ (i : Instr) (code tag : Byte) (payload : List Byte), i.wellFormed = true → commandOf i = some (code, tag, payload) →
    commandLength code = some payload.length ∧ payload.length ≤ 200 ∧ commandRow code tag payload = some i

/-- A bad outbound arrival: HEADER_CRC, the number raised by 1, the filler block on the room port, and, once the timer has started, the
period's mark, the lock's sight of a bad header, the core-silence count raised to at most 48 and a silent block in every history. An expiry
of the running block interval timer: the number raised by 1, the same mark, sight and count, a silent block in every history, nothing on
the room port (R42, R85, R127, R128, R130, R131, R139, R141). A silent append: TABLE_PARITY, a cleared modulator memory and silence for a
reference read with a mismatch; otherwise silence, with the sweep advanced and the memory cleared where the reference is dithered; each with
the activity test on the silent block (R40, R42, R45 to R47). The marks of the seed step and of the room-silence advance are the model's
(log 4), and the ascending order of the references (log 9). That the silent appends and the filler block's slots go by the operating state
that HEADER_CRC, the lock and the core-silence count leave is the model's choice (log 10), and that a mismatch clears the memory whatever
the operating state and the depth is its reading of R46 (log 28). -/
def Obligations.LostPeriodEffect : Prop :=
  (∀ s : State, s.ports.timerRunning = true →
    let appended := fun (v : State) =>
      let sighted := v.markPeriod.lockSees .lost
      let counted : State :=
        { sighted with
          ports :=
            { sighted.ports with
              coreSilence := if s.ports.coreSilence < 48 then s.ports.coreSilence + 1 else s.ports.coreSilence } }
      let lost := if s.ports.coreSilence = 47 ∧ sighted.ports.armed = true then counted.raise .coreSilence (.port .core) none else counted
      ((List.range 8).foldl (State.silentAppend lost.unit.opState) lost, lost.unit.opState)
    let numbered := fun (v : State) => { v with ports := { v.ports with lastSeq := s.ports.lastSeq + 1 } }
    (∀ slots : List Slot, s.ports.pinHeld = false →
      let u := appended (numbered (s.raise .headerCrc (.port .core) none))
      exec (.outboundBadArrival slots) s =
        .next { u.1 with
          ports :=
            { u.1.ports with
              roomTx :=
                some { seq := s.ports.lastSeq + 1, filler := true, slots := if u.2 = .bypass then slots else List.replicate 16 silence,
                       packet := none } } }) ∧
    let w := (appended (numbered s)).1
    exec .blockIntervalTimerExpiry s = .next { w with ports := { w.ports with roomTx := none } }) ∧
  (∀ (s : State) (op : OpState) (r : Nat), r < 8 → TablesSized s →
    let ref := s.reference r
    let tested :=
      if 0 < ref.hangoverCount then { ref with hangoverCount := ref.hangoverCount - 1 }
      else { ref with active := false }
    let m := s.modulator r
    let dithered := (op = .run ∨ op = .safe) ∧ ref.slot ≠ none ∧ ref.depth ≠ 0
    (ref.parityBad = false → dithered →
      State.silentAppend op s r =
        { s with
          modulators := s.modulators.set r { sweep := (m.sweep + 1) % 1875, lastIn := 0, lastOut := 0 }
          histories := s.histories.set r ((silence :: s.history r).take 512)
          references := s.references.set r tested }) ∧
    (ref.parityBad = false → ¬dithered →
      State.silentAppend op s r =
        { s with
          histories := s.histories.set r ((silence :: s.history r).take 512)
          references := s.references.set r tested }) ∧
    (ref.parityBad = true →
      let v := s.raise .tableParity (.reference r) none
      State.silentAppend op s r =
        { v with
          modulators := v.modulators.set r { v.modulator r with lastIn := 0, lastOut := 0 }
          histories := s.histories.set r ((silence :: s.history r).take 512)
          references := s.references.set r tested })) ∧
  (∀ (s : State) (slots : List Slot), s.ports.pinHeld = false → TablesSized s → (∀ r < 8, (s.reference r).parityBad = false) →
    ∃ t, exec (.outboundBadArrival slots) s = .next t ∧ t.unit.isSet .headerCrc = true ∧
      t.ports.lastSeq = s.ports.lastSeq + 1 ∧ t.ports.timerRunning = s.ports.timerRunning ∧
      t.ports.roomTx =
        some { seq := s.ports.lastSeq + 1, filler := true, slots := if t.unit.opState = .bypass then slots else List.replicate 16 silence,
               packet := none } ∧
      (s.ports.timerRunning = false → t.histories = s.histories ∧ t.references = s.references ∧ t.seed = s.seed ∧
        t.ports.lock = s.ports.lock ∧ t.ports.acquire = s.ports.acquire ∧ t.ports.loss = s.ports.loss ∧ t.ports.armed = s.ports.armed ∧
        t.ports.coreSilence = s.ports.coreSilence ∧ t.ports.roomMarks = s.ports.roomMarks) ∧
      (s.ports.timerRunning = true →
        t.ports.lock = (s.lockSees .lost).ports.lock ∧ t.ports.acquire = (s.lockSees .lost).ports.acquire ∧
          t.ports.loss = (s.lockSees .lost).ports.loss ∧ t.ports.armed = (s.lockSees .lost).ports.armed ∧
          t.seed = { queue := s.seed.queue, granted := true } ∧
          t.ports.roomMarks = (if s.ports.roomEarly then s.ports.roomMarks else s.ports.roomMarks + 1) ∧ t.ports.roomEarly = false ∧
          t.ports.coreSilence = (if s.ports.coreSilence < 48 then s.ports.coreSilence + 1 else s.ports.coreSilence) ∧
          (s.ports.coreSilence = 47 → (s.lockSees .lost).ports.armed = true → t.unit.isSet .coreSilence = true) ∧
          ∀ r < 8, t.history r = (silence :: s.history r).take 512) ∧
      t.channels = s.channels ∧ t.paths = s.paths ∧ t.pool = s.pool ∧ t.comparator = s.comparator ∧ t.seed.queue = s.seed.queue ∧
      t.decision = s.decision ∧ t.control.replies = s.control.replies ∧ t.control.forward = s.control.forward ∧
      t.control.streamer = s.control.streamer) ∧
  ∀ s : State, s.ports.timerRunning = true → TablesSized s →
    ∃ t, exec .blockIntervalTimerExpiry s = .next t ∧ t.ports.lastSeq = s.ports.lastSeq + 1 ∧ t.ports.roomTx = none ∧
      t.ports.timerRunning = true ∧ t.ports.lock = (s.lockSees .lost).ports.lock ∧ t.ports.acquire = (s.lockSees .lost).ports.acquire ∧
      t.ports.loss = (s.lockSees .lost).ports.loss ∧ t.ports.armed = (s.lockSees .lost).ports.armed ∧
      t.seed = { queue := s.seed.queue, granted := true } ∧
      t.ports.roomMarks = (if s.ports.roomEarly then s.ports.roomMarks else s.ports.roomMarks + 1) ∧ t.ports.roomEarly = false ∧
      t.ports.coreSilence = (if s.ports.coreSilence < 48 then s.ports.coreSilence + 1 else s.ports.coreSilence) ∧
      (s.ports.coreSilence = 47 → (s.lockSees .lost).ports.armed = true → t.unit.isSet .coreSilence = true) ∧
      (∀ r < 8, t.history r = (silence :: s.history r).take 512) ∧
      t.channels = s.channels ∧ t.paths = s.paths ∧ t.pool = s.pool ∧ t.comparator = s.comparator ∧
      t.decision = s.decision ∧ t.control.replies = s.control.replies ∧ t.control.forward = s.control.forward ∧
      t.control.streamer = s.control.streamer ∧ t.ports.coreLine = s.ports.coreLine

/-- The lock's table, cell by cell (R139, R140). -/
def Obligations.LockTable : Prop :=
  ∀ s : State,
    (s.ports.lock = .unlocked →
      ((s.lockSees .inSequence).ports.lock = .acquiring ∧ (s.lockSees .inSequence).ports.acquire = 1) ∧
        ((s.lockSees .gap).ports.lock = .acquiring ∧ (s.lockSees .gap).ports.acquire = 1) ∧ s.lockSees .lost = s) ∧
    (s.ports.lock = .acquiring →
      (s.ports.acquire + 1 < 16 →
        s.lockSees .inSequence = { s with ports := { s.ports with acquire := s.ports.acquire + 1 } }) ∧
      (s.ports.acquire + 1 = 16 →
        (s.lockSees .inSequence).ports.lock = .locked ∧ (s.lockSees .inSequence).ports.acquire = 16 ∧
          (s.lockSees .inSequence).ports.loss = 0 ∧ (s.lockSees .inSequence).ports.armed = true) ∧
      (∀ x, x = LockSight.gap ∨ x = LockSight.lost → s.lockSees x = { s with ports := { s.ports with lock := .unlocked, acquire := 0 } })) ∧
    (s.ports.lock = .locked →
      s.lockSees .inSequence = { s with ports := { s.ports with loss := 0 } } ∧
        ∀ x, x = LockSight.gap ∨ x = LockSight.lost →
          (s.ports.loss + 1 < 3 → s.lockSees x = { s with ports := { s.ports with loss := s.ports.loss + 1 } }) ∧
            (3 ≤ s.ports.loss + 1 →
              (s.lockSees x).ports.lock = .unlocked ∧ (s.lockSees x).ports.acquire = 0 ∧ (s.lockSees x).ports.loss = 0 ∧
                (s.ports.armed = true → (s.lockSees x).unit.isSet .clockUnlock = true)))

/-- LOCK_ACQUIRED: the lock becomes LOCKED with count 16 and fault arming set; a part in OFFLINE goes to SAFE when an unmasked grave status
is set and to RUN otherwise, with its STATE notice, which a full queue discards as RaiseRule says; a part in another state keeps it (R139,
R142, R162). That the row is this transition alone is the model's choice (log 2), and that the modulators are cleared at it (log 28). -/
def Obligations.LockAcquiredEffect : Prop :=
  ∀ s : State, s.ports.pinHeld = false → s.ports.lock = .acquiring → s.ports.acquire = 15 →
    (s.unit.opState ≠ .offline →
      exec .lockAcquired s = .next { s with ports := { s.ports with lock := .locked, acquire := 16, loss := 0, armed := true } }) ∧
    (s.unit.opState = .offline →
      ∃ new, (GraveStands s.unit → new = .safe) ∧ (¬GraveStands s.unit → new = .run) ∧
        let left : State :=
          { s with
            ports := { s.ports with lock := .locked, acquire := 16, loss := 0, armed := true }
            unit := { s.unit with opState := new }
            modulators := s.modulators.map fun m => { m with lastIn := 0, lastOut := 0 } }
        exec .lockAcquired s = .next (if s.control.enableState then left.postNotice (.state new .locked s.unit.cause) none else left)) ∧
    (s.unit.opState = .offline → s.control.notices.length < 8 →
      ∃ t new, exec .lockAcquired s = .next t ∧ (GraveStands s.unit → new = .safe) ∧ (¬GraveStands s.unit → new = .run) ∧
        t.ports = { s.ports with lock := .locked, acquire := 16, loss := 0, armed := true } ∧ t.unit = { s.unit with opState := new } ∧
        t.control =
          { s.control with
            notices := s.control.notices ++ (if s.control.enableState then [.state new .locked s.unit.cause] else []) } ∧
        t.channels = s.channels ∧ t.paths = s.paths ∧ t.pool = s.pool ∧ t.references = s.references ∧ t.histories = s.histories ∧
        t.seed = s.seed ∧ t.decision = s.decision ∧ t.comparator = s.comparator)

/-- LOCK_LOSS: the lock becomes UNLOCKED with both counts 0; with fault arming set CLOCK_UNLOCK is raised, and without it nothing is (R140,
R142). CORE_SILENCE: the count becomes 48; with fault arming set CORE_SILENCE is raised, and without it nothing is (R141, R142). That each
row is its transition alone is the model's choice (log 2). -/
def Obligations.LockLossAndCoreSilence : Prop :=
  (∀ s : State, s.ports.lock = .locked → s.ports.loss = 2 →
    exec .lockLoss s =
      .next
        (if s.ports.armed then
          ({ s with ports := { s.ports with lock := .unlocked, acquire := 0, loss := 0 } } : State).raise .clockUnlock (.port .core) none
        else { s with ports := { s.ports with lock := .unlocked, acquire := 0, loss := 0 } })) ∧
  (∀ s : State, s.ports.timerRunning = true → s.ports.coreSilence = 47 →
    exec .coreSilence s =
      .next
        (if s.ports.armed then
          ({ s with ports := { s.ports with coreSilence := 48 } } : State).raise .coreSilence (.port .core) none
        else { s with ports := { s.ports with coreSilence := 48 } }))

/-! ### Raising a fault (R155, R166, R167) -/

/-- What a raise does to a fault unit: a masked one sets the status; an unmasked one sets the status and takes an empty record or sets the
multiple flag; an unmasked grave one from clear in RUN or BYPASS enters SAFE; notices are produced only from clear, the FAULT notice
first. A produced notice goes to the tail of a queue with room; a full queue discards it and raises NOTICE_OVERFLOW, whose own FAULT notice
is discarded without a further raise. The last clause writes the raise out for a queue with room for both notices (R155, R161, R166, R167).
That the STATE notice of an entry to SAFE by NOTICE_OVERFLOW, discarded too, sets the multiple flag by one more raise is the model's reading
(log 20), and that entry to SAFE from a state without dither clears the modulators there (log 28). -/
def Obligations.RaiseRule : Prop :=
  (∀ (s : State) (n : Notice) (tag : Option Byte),
    let status := s.unit.status ||| 0b000010000000
    let record := match s.unit.record with
      | none => some { cls := .noticeOverflow, subject := .noticeKind n.kind, tag := tag, seq := s.ports.lastSeq }
      | some r => some r
    let multiple := s.unit.multiple || s.unit.record.isSome
    let entersSafe := s.unit.severities.getLsbD 7 && (s.unit.opState == .run || s.unit.opState == .bypass)
    (s.control.notices.length < 8 → s.postNotice n tag = { s with control := { s.control with notices := s.control.notices ++ [n] } }) ∧
    (8 ≤ s.control.notices.length →
      (s.unit.masks.getLsbD 7 = true → s.postNotice n tag = { s with unit := { s.unit with status := status } }) ∧
      (s.unit.masks.getLsbD 7 = false → s.unit.status.getLsbD 7 = true →
        s.postNotice n tag = { s with unit := { s.unit with record := record, multiple := multiple } }) ∧
      (s.unit.masks.getLsbD 7 = false → s.unit.status.getLsbD 7 = false →
        s.postNotice n tag =
          { s with
            unit :=
              { s.unit with
                status := status
                record := record
                multiple := multiple || (entersSafe && s.control.enableState)
                opState := if entersSafe then .safe else s.unit.opState }
            modulators :=
              if entersSafe && s.unit.opState == .bypass then s.modulators.map fun m => { m with lastIn := 0, lastOut := 0 }
              else s.modulators }))) ∧
  (∀ (s : State) (c : FaultClass) (subject : Subject) (tag : Option Byte),
    let record := match s.unit.record with
      | none => some { cls := c, subject := subject, tag := tag, seq := s.ports.lastSeq }
      | some r => some r
    let multiple := s.unit.multiple || s.unit.record.isSome
    let set : State := { s with unit := { s.unit with status := s.unit.status ||| (1#12 <<< c.code), record := record, multiple := multiple } }
    let told := if s.control.enableFault then set.postNotice (.fault c subject) tag else set
    let safe : State :=
      { told with
        unit := { told.unit with opState := .safe }
        modulators :=
          if told.unit.opState = .bypass then told.modulators.map fun m => { m with lastIn := 0, lastOut := 0 } else told.modulators }
    (s.unit.masks.getLsbD c.code = true →
      s.raise c subject tag = { s with unit := { s.unit with status := s.unit.status ||| (1#12 <<< c.code) } }) ∧
    (s.unit.masks.getLsbD c.code = false → s.unit.status.getLsbD c.code = true →
      s.raise c subject tag = { s with unit := { s.unit with record := record, multiple := multiple } }) ∧
    (s.unit.masks.getLsbD c.code = false → s.unit.status.getLsbD c.code = false →
      s.raise c subject tag =
        if s.unit.severities.getLsbD c.code && (told.unit.opState == .run || told.unit.opState == .bypass) then
          (if s.control.enableState then safe.postNotice (.state .safe (.fault c) s.unit.cause) tag else safe)
        else told)) ∧
  ∀ (s : State) (c : FaultClass) (subject : Subject) (tag : Option Byte), s.control.notices.length ≤ 6 →
    let status := s.unit.status ||| (1#12 <<< c.code)
    let record := match s.unit.record with
      | none => some { cls := c, subject := subject, tag := tag, seq := s.ports.lastSeq }
      | some r => some r
    let multiple := s.unit.multiple || s.unit.record.isSome
    let entersSafe := s.unit.severities.getLsbD c.code && (s.unit.opState == .run || s.unit.opState == .bypass)
    (s.unit.masks.getLsbD c.code = true → s.raise c subject tag = { s with unit := { s.unit with status := status } }) ∧
    (s.unit.masks.getLsbD c.code = false → s.unit.status.getLsbD c.code = true →
      s.raise c subject tag = { s with unit := { s.unit with record := record, multiple := multiple } }) ∧
    (s.unit.masks.getLsbD c.code = false → s.unit.status.getLsbD c.code = false →
      (s.raise c subject tag).unit =
        { s.unit with
          status := status, record := record, multiple := multiple, opState := if entersSafe then .safe else s.unit.opState } ∧
      (s.raise c subject tag).control =
        { s.control with
          notices :=
            s.control.notices ++ (if s.control.enableFault then [.fault c subject] else []) ++
              (if entersSafe && s.control.enableState then [.state .safe (.fault c) s.unit.cause] else []) }) ∧
    (s.raise c subject tag).ports = s.ports ∧ (s.raise c subject tag).references = s.references ∧
    (s.raise c subject tag).histories = s.histories ∧ (s.raise c subject tag).channels = s.channels ∧
    (s.raise c subject tag).paths = s.paths ∧ (s.raise c subject tag).pool = s.pool ∧ (s.raise c subject tag).seed = s.seed ∧
    (s.raise c subject tag).comparator = s.comparator ∧ (s.raise c subject tag).decision = s.decision ∧
    (s.raise c subject tag).pending = s.pending

/-! ### The inbound side (R134 to R138, R151, R152, R158, R159) -/

/-- ROOM_SILENCE_ADVANCE before the room has fallen silent: the count rises by 1 and the mark is used up; and once it has, an origination
that finds the skip mark clears it and sends nothing, while one that finds none sends a filler block with the next number, built by the
channel blocks on silent slots (R134, R137, R138). ROOM_SILENCE: the count becomes 48, the origination flag turns on with the skip mark
clear, ROOM_SILENCE is raised when fault arming is set, and the mark originates a filler block with the next number (R134, R137, R138,
R142); the advance has the same effect at a count of 47. Without an advance that is due, or may be taken ahead, nothing comes about. That a
period's mark waits for these rows, and that one may be taken ahead of it, is the model's choice (log 4), that ROOM_SILENCE is the advance
at a count of 47 with its origination (log 2), and the line of ready blocks (log 6); what may come between the channel blocks is an operand
of the row (log 30). At a count of 47 the originated block is processed under the operating state after ROOM_SILENCE has been raised, which is
the model's choice too (log 10). -/
def Obligations.RoomSilenceRows : Prop :=
  (∀ (s : State) (between : List (Nat × Interlude)), 0 < s.ports.roomMarks ∨ s.ports.timerRunning = true ∧ s.ports.roomEarly = false →
    let opened : State :=
      { s with
        ports :=
          if 0 < s.ports.roomMarks then { s.ports with roomMarks := s.ports.roomMarks - 1 } else { s.ports with roomEarly := true } }
    let originated := fun (v : State) =>
      let done := v.processSlots between (List.replicate 32 silence)
      ({ done.2 with
        ports :=
          { done.2.ports with
            inTxSeq := done.2.ports.inTxSeq + 1
            coreLine :=
              done.2.ports.coreLine ++ [{ seq := done.2.ports.inTxSeq + 1, filler := true, slots := done.1 }] } } : State)
    let silent : State := { opened with ports := { opened.ports with roomSilence := 48, origination := true, skip := false } }
    (s.ports.roomSilence < 47 → s.ports.origination = false →
      exec (.roomSilenceAdvance between) s =
        .next { opened with ports := { opened.ports with roomSilence := s.ports.roomSilence + 1 } }) ∧
    (s.ports.roomSilence = 48 → s.ports.origination = true → s.ports.skip = true →
      exec (.roomSilenceAdvance between) s = .next { opened with ports := { opened.ports with skip := false } }) ∧
    (s.ports.roomSilence = 48 → s.ports.origination = true → s.ports.skip = false →
      exec (.roomSilenceAdvance between) s = .next (originated opened)) ∧
    (s.ports.roomSilence = 47 →
      exec (.roomSilence between) s =
        .next (originated (if s.ports.armed = true then silent.raise .roomSilence (.port .room) none else silent)) ∧
      exec (.roomSilenceAdvance between) s = exec (.roomSilence between) s)) ∧
  (∀ (s : State) (between : List (Nat × Interlude)), s.ports.roomMarks = 0 → s.ports.timerRunning = false ∨ s.ports.roomEarly = true →
    exec (.roomSilenceAdvance between) s = .next s ∧ exec (.roomSilence between) s = .next s) ∧
  ∀ s : State, 0 < s.ports.roomMarks → s.ports.roomSilence = 47 →
    ∃ t slots', exec (.roomSilence []) s = .next t ∧
      t.ports =
        { s.ports with
          roomMarks := s.ports.roomMarks - 1
          roomSilence := 48
          origination := true
          skip := false
          inTxSeq := s.ports.inTxSeq + 1
          coreLine := s.ports.coreLine ++ [{ seq := s.ports.inTxSeq + 1, filler := true, slots := slots' }] } ∧
      SameElsewhere (fun k => ∃ c < 24, (s.channel c).slot = some k) (List.replicate 32 silence) slots' ∧
      (s.ports.armed = true → t.unit.isSet .roomSilence = true)

/-- A good inbound arrival: room silence ends, the channel blocks process the slots, the packet joins the forward FIFO or is discarded with the
fault of its case, and the block joins the core port's line with its number and filler flag. With nothing between its channel blocks, every
slot named by no channel is as it arrived and what channel blocks leave alone stands (R31, R135, R136). Which packets are good, by kind,
origin, size and CRC, and that a good one enters with its origin raised by 1, whatever stands beyond its length in the window (R136, R173,
11.2). The line of ready blocks is the model's
choice (log 6), that a NOTICE of an unknown kind is bad too (log 17); what may come between the channel blocks is an operand of the row
(log 30). -/
def Obligations.InboundGoodArrivalEffect : Prop :=
  (∀ (first : Byte) (rest : List Byte), rest.length ≤ 207 →
    let body := first :: rest
    let kind := first.toNat / 16
    let origin := first.toNat % 16
    let field := fun (k : Nat) => (body.getD k 0).toNat
    let good :=
      origin < 7 ∧
        (kind = 2 ∧ field 4 ≤ 200 ∧ body.length = 5 + field 4 ∨
          kind = 3 ∧ (field 3 % 4 ≤ 1 ∧ body.length = 198 ∨ field 3 % 4 = 2 ∧ body.length = 6) ∨
          kind = 4 ∧ (field 1 = 1 ∧ field 2 = 5 ∨ field 1 = 2 ∧ field 2 = 3 ∨ field 1 = 3 ∧ field 2 = 1) ∧ body.length = 3 + field 2)
    (good → readInbound (windowOf (some (withCrc body))) = some (BitVec.ofNat 8 (16 * kind + origin + 1) :: rest)) ∧
      (¬good → readInbound (windowOf (some (withCrc body))) = none)) ∧
  (∀ (window packet : List Byte),
    readInbound window = some packet ↔
      ∃ (first : Byte) (rest : List Byte), packet = (first + 1) :: rest ∧ rest.length ≤ 207 ∧
        window.take (rest.length + 5) = bytes2 (rest.length + 3) ++ withCrc (first :: rest) ∧
        readInbound (windowOf (some (withCrc (first :: rest)))) = some packet) ∧
  (∀ (s : State) (seq flags : Byte) (slots : List Slot) (window : List Byte) (between : List (Nat × Interlude)), s.ports.pinHeld = false →
    let heard : State := { s with ports := { s.ports with roomSilence := 0, origination := false, skip := false } }
    let done := heard.processSlots between slots
    let v := done.2
    let u : State :=
      if flags.getLsbD 6 = false then v
      else
        match readInbound window with
        | none => v.raise .packetError (.port .room) none
        | some p =>
          if v.control.forward.length < 8 then { v with control := { v.control with forward := v.control.forward ++ [p] } }
          else v.raise .forwardOverflow (.port .room) none
    exec (.inboundGoodArrival seq flags slots window between) s =
      .next { u with
        ports :=
          { u.ports with
            inTxSeq := seq, coreLine := u.ports.coreLine ++ [{ seq := seq, filler := flags.getLsbD 7, slots := done.1 }] } }) ∧
  ∀ (s : State) (seq flags : Byte) (slots : List Slot) (window : List Byte), s.ports.pinHeld = false →
    ∃ t slots', exec (.inboundGoodArrival seq flags slots window []) s = .next t ∧
      t.ports =
        { s.ports with
          roomSilence := 0
          origination := false
          skip := false
          inTxSeq := seq
          coreLine := s.ports.coreLine ++ [{ seq := seq, filler := flags.getLsbD 7, slots := slots' }] } ∧
      SameElsewhere (fun k => ∃ c < 24, (s.channel c).slot = some k) slots slots' ∧
      (flags.getLsbD 6 = false → t.control.forward = s.control.forward) ∧
      (∀ p, flags.getLsbD 6 = true → readInbound window = some p → s.control.forward.length < 8 →
        t.control.forward = s.control.forward ++ [p]) ∧
      (∀ p, flags.getLsbD 6 = true → readInbound window = some p → 8 ≤ s.control.forward.length →
        t.control.forward = s.control.forward ∧ t.unit.isSet .forwardOverflow = true) ∧
      (flags.getLsbD 6 = true → readInbound window = none →
        t.control.forward = s.control.forward ∧ t.unit.isSet .packetError = true) ∧
      t.control.replies = s.control.replies ∧ t.control.streamer = s.control.streamer ∧ t.references = s.references ∧
      t.histories = s.histories ∧ t.decision = s.decision ∧ t.comparator = s.comparator ∧ t.pool.free = s.pool.free

/-- A bad inbound arrival: HEADER_CRC, then the skip mark where the origination flag is on, then a filler block with the next number in the
core port's line, built by the channel blocks on silent slots, or in BYPASS on the slots as they arrived. With nothing between its channel
blocks, every slot named by no channel is so, and what channel blocks leave alone stands (R31, R137, R138). That BYPASS is read after
HEADER_CRC has been raised is the model's choice (log 10), the line of ready blocks too (log 6); what may come between the channel blocks is
an operand of the row (log 30). -/
def Obligations.InboundBadArrivalEffect : Prop :=
  (∀ (s : State) (slots : List Slot) (between : List (Nat × Interlude)), s.ports.pinHeld = false →
    let raised := s.raise .headerCrc (.port .room) none
    let marked : State := { raised with ports := { raised.ports with skip := raised.ports.skip || raised.ports.origination } }
    let done := marked.processSlots between (if raised.unit.opState = .bypass then slots else List.replicate 32 silence)
    exec (.inboundBadArrival slots between) s =
      .next { done.2 with
        ports :=
          { done.2.ports with
            inTxSeq := done.2.ports.inTxSeq + 1
            coreLine :=
              done.2.ports.coreLine ++ [{ seq := done.2.ports.inTxSeq + 1, filler := true, slots := done.1 }] } }) ∧
  ∀ (s : State) (slots : List Slot), s.ports.pinHeld = false →
    ∃ t slots', exec (.inboundBadArrival slots []) s = .next t ∧ t.unit.isSet .headerCrc = true ∧
      t.ports =
        { s.ports with
          skip := s.ports.skip || s.ports.origination
          inTxSeq := s.ports.inTxSeq + 1
          coreLine := s.ports.coreLine ++ [{ seq := s.ports.inTxSeq + 1, filler := true, slots := slots' }] } ∧
      SameElsewhere (fun k => ∃ c < 24, (s.channel c).slot = some k)
        (if (s.raise .headerCrc (.port .room) none).unit.opState = .bypass then slots else List.replicate 32 silence) slots' ∧
      t.control.replies = s.control.replies ∧ t.control.forward = s.control.forward ∧ t.control.streamer = s.control.streamer ∧
      t.references = s.references ∧ t.histories = s.histories ∧ t.decision = s.decision ∧ t.comparator = s.comparator ∧
      t.pool.free = s.pool.free

/-- The processing of an inbound link block: the channel blocks of channels 0 to 23 one after another, all under the operating state and the
safe action read when the processing begins, each with its slot as it arrived for capture and on the state as it stands at its own time,
with what comes between them; an interlude before channel n's block finds the state that the blocks before n leave, and the blocks from n on
find what it leaves. Each interlude has the effect of the row of its name (R33, R49, R160). A SELECT DECISION BANK that falls between two
channel blocks: the blocks before it have found the old bank, and the blocks after it find the new one (R111, R112). The ascending order is
the model's choice (log 9), and that the interludes are operands of the row, and what a slot moved to another channel between two blocks
leaves with (log 30). -/
def Obligations.InboundBlockProcessing : Prop :=
  (∀ (s : State) (slots : List Slot),
    s.processSlots [] slots = (List.range 24).foldl (State.channelBlock s.unit.opState s.unit.safeAction slots) (slots, s)) ∧
  (∀ (s : State) (between : List (Nat × Interlude)) (slots : List Slot),
    s.processSlots between slots =
      (List.range 24).foldl
        (fun acc c =>
          State.channelBlock s.unit.opState s.unit.safeAction slots
            (acc.1, ((between.filter fun x => x.1 == c).map Prod.snd).foldl State.takeInterlude acc.2) c)
        (slots, s)) ∧
  (∀ (s : State) (x : Interlude) (n : Nat) (slots : List Slot), n < 24 →
    let before := (List.range n).foldl (State.channelBlock s.unit.opState s.unit.safeAction slots) (slots, s)
    s.processSlots [(n, x)] slots =
      (List.range' n (24 - n)).foldl (State.channelBlock s.unit.opState s.unit.safeAction slots) (before.1, before.2.takeInterlude x)) ∧
  (∀ s : State,
    (∀ (i : Instr) (code tag : Byte) (payload : List Byte), i.wellFormed = true → commandOf i = some (code, tag, payload) →
      exec i s = .next (s.takeInterlude (.command code tag payload))) ∧
    (∀ (seq flags : Byte) (slots : List Slot) (window : List Byte) (stepFirst : Bool),
      exec (.outboundGoodArrival seq flags slots window stepFirst) s =
        .next (s.takeInterlude (.outboundGood seq flags slots window stepFirst))) ∧
    (∀ slots : List Slot, exec (.outboundBadArrival slots) s = .next (s.takeInterlude (.outboundBad slots))) ∧
    exec .blockIntervalTimerExpiry s = .next (s.takeInterlude .timerExpiry) ∧ exec .seedStep s = .next (s.takeInterlude .seedStep) ∧
    exec .inboundBlockTransmit s = .next (s.takeInterlude .transmit)) ∧
  ∀ (s : State) (tag bank : Byte) (n : Nat) (slots : List Slot), Accepting s → bank.toNat ≤ 1 → n < 24 →
    let before := (List.range n).foldl (State.channelBlock s.unit.opState s.unit.safeAction slots) (slots, s)
    let switched := before.2.takeInterlude (.command 0x53 tag [bank])
    s.processSlots [(n, .command 0x53 tag [bank])] slots =
        (List.range' n (24 - n)).foldl (State.channelBlock s.unit.opState s.unit.safeAction slots) (before.1, switched) ∧
      before.2.decision = s.decision ∧
      switched = replied { before.2 with decision := { s.decision with active := bank.toNat } } tag 0x53 .done []

/-- The inbound window arbiter: the forward source, or of the own source the head of the replies, else of the notices, else the ABORTED
packet; under contention, whatever the own source offers, the source that did not win the last one; neither source, no packet (R158, R159).
A DATA packet's own grant, contended or not, is ReadbackGrant's. The bytes of a REPLY packet, of a NOTICE packet with its subject, and of the
ABORTED packet but for the bits without content; each is sent with its CRC (R143, R155, R172, R174, 11.2, 11.5). That ready blocks wait in a
line for the core port is the model's choice (log 6), and the value of the ABORTED packet's bits without content too (log 32). -/
def Obligations.ArbiterGrants : Prop :=
  (∀ body : List Byte, withCrc body = body ++ [(crc body).extractLsb' 8 8, (crc body).extractLsb' 0 8]) ∧
  (∀ r : Reply,
    r.body =
      [0x20, r.tag, r.code,
        (match r.outcome with
          | .done => 0
          | .busy => 1
          | .state => 2
          | .range => 3
          | .noResource => 4
          | .conflict => 5
          | .unknown => 6
          | .length => 7),
        BitVec.ofNat 8 r.payload.length] ++ r.payload) ∧
  (∀ (c : FaultClass) (subject : Subject),
    Notice.body (.fault c subject) =
      [0x40, 1, 5, BitVec.ofNat 8 c.code] ++
        match subject with
          | .port .core => [1, 0, 0, 0]
          | .port .room => [1, 1, 0, 0]
          | .channel c => [2, BitVec.ofNat 8 c, 0, 0]
          | .reference r => [3, BitVec.ofNat 8 r, 0, 0]
          | .path p k => [4, BitVec.ofNat 8 p, BitVec.ofNat 8 (k / 256), BitVec.ofNat 8 k]
          | .bankEntry b e => [5, BitVec.ofNat 8 b, BitVec.ofNat 8 (e / 256), BitVec.ofNat 8 e]
          | .tag t => [6, t, 0, 0]
          | .noticeKind .fault => [7, 1, 0, 0]
          | .noticeKind .state => [7, 2, 0, 0]
          | .noticeKind .pathReady => [7, 3, 0, 0]) ∧
  (∀ (new : OpState) (reason : Reason) (cause : ResetCause),
    Notice.body (.state new reason cause) =
      [0x40, 2, 3,
        (match new with
          | .offline => 0
          | .run => 1
          | .bypass => 2
          | .safe => 3),
        (match reason with
          | .locked => 0
          | .command => 1
          | .fault c => BitVec.ofNat 8 (16 + c.code)),
        (match cause with
          | .power => 0
          | .pin => 1
          | .command => 2)]) ∧
  (∀ p : Nat, Notice.body (.pathReady p) = [0x40, 3, 1, BitVec.ofNat 8 p]) ∧
  (∀ rb : Readback, ∃ b : Byte,
    rb.abortedBody = [0x30, rb.tag, BitVec.ofNat 8 rb.path, b, BitVec.ofNat 8 (rb.next / 256), BitVec.ofNat 8 rb.next] ∧
      b.getLsbD 7 = decide (rb.set = .background) ∧ b.getLsbD 1 = true ∧ b.getLsbD 0 = false) ∧
  ∀ (s : State) (b : InboundBlock) (line : List InboundBlock), s.ports.pinHeld = false → s.ports.coreLine = b :: line →
    let sent := fun (packet : Option (List Byte)) =>
      { s.ports with coreLine := line, coreTx := some { seq := b.seq, filler := b.filler, slots := b.slots, packet := packet } }
    (s.control.forward = [] → s.control.replies = [] → s.control.notices = [] → s.control.streamer = .idle →
      exec .inboundBlockTransmit s = .next { s with ports := sent none }) ∧
    (∀ p rest, s.control.forward = p :: rest → s.control.replies = [] → s.control.notices = [] → s.control.streamer = .idle →
      exec .inboundBlockTransmit s = .next { s with ports := sent (some (withCrc p)), control := { s.control with forward := rest } }) ∧
    (∀ p rest, s.control.forward = p :: rest → s.control.replies ≠ [] ∨ s.control.notices ≠ [] ∨ s.control.streamer ≠ .idle →
      s.control.winner = .own →
      exec .inboundBlockTransmit s =
        .next { s with ports := sent (some (withCrc p)), control := { s.control with forward := rest, winner := .forward } }) ∧
    (s.control.forward = [] ∨ s.control.winner = .forward →
      let winner := if s.control.forward = [] then s.control.winner else .own
      (∀ r replies, s.control.replies = r :: replies →
        exec .inboundBlockTransmit s =
          .next { s with ports := sent (some (withCrc r.body)), control := { s.control with replies := replies, winner := winner } }) ∧
      (∀ n notices, s.control.replies = [] → s.control.notices = n :: notices →
        exec .inboundBlockTransmit s =
          .next { s with ports := sent (some (withCrc n.body)), control := { s.control with notices := notices, winner := winner } }) ∧
      ∀ rb, s.control.replies = [] → s.control.notices = [] → s.control.streamer = .closing rb →
        exec .inboundBlockTransmit s =
          .next { s with ports := sent (some (withCrc rb.abortedBody)), control := { s.control with streamer := .idle, winner := winner } })

/-- The grant of a readback's packet: the partition at the next index, of the set the readback names, zeros where it is read with a
mismatch; MORE while partitions remain, LAST with the last one, which ends the readback and, where the owner channel's pending promote is
set, applies the promotion in the same grant (R59, R75, R151, R159). Here where no reply or notice waits, and the forward source either
offers nothing or has won the last contention. The bytes of a DATA packet with its taps but for the bits without content (R172, 11.2). That
ready blocks wait in a line for the core port is the model's choice (log 6), and the value of the packet's bits without content too
(log 32); so is that the promotion is applied also where a RESET ADAPTATION falls together with the grant and follows it, against R93's
word (log 36). -/
def Obligations.ReadbackGrant : Prop :=
  (∀ (rb : Readback) (last : Bool) (taps : Slot), ∃ b : Byte,
    rb.dataBody last taps =
        [0x30, rb.tag, BitVec.ofNat 8 rb.path, b, BitVec.ofNat 8 (rb.next / 256), BitVec.ofNat 8 rb.next] ++
          taps.flatMap (fun x => [x.extractLsb' 16 8, x.extractLsb' 8 8, x.extractLsb' 0 8]) ∧
      b.getLsbD 7 = decide (rb.set = .background) ∧ b.getLsbD 1 = false ∧ b.getLsbD 0 = last) ∧
  ∀ (s : State) (b : InboundBlock) (line : List InboundBlock) (rb : Readback) (n : Nat), s.ports.pinHeld = false →
    s.ports.coreLine = b :: line → s.control.forward = [] ∨ s.control.winner = .forward → s.control.replies = [] → s.control.notices = [] →
    s.control.streamer = .streaming rb → (s.path rb.path).chain[rb.next]? = some n →
    let r := s.path rb.path
    let set := match rb.set with
      | .live => r.live
      | .background => r.live.other
    let source := (s.pool.cells.read n).get set
    let taps := if source.upset then silence else source.taps
    let won : State :=
      { s with control := { s.control with winner := if s.control.forward = [] then s.control.winner else .own } }
    let s0 := if source.upset then won.raise .coeffParity (.path rb.path rb.next) none else won
    let sent := fun (packet : List Byte) =>
      { s.ports with coreLine := line, coreTx := some { seq := b.seq, filler := b.filler, slots := b.slots, packet := some (withCrc packet) } }
    let ended : State :=
      { s0 with
        control := { s0.control with streamer := .idle }
        paths := if rb.set = .background then s.paths.set rb.path { r with readHeld := false } else s.paths }
    (1 < rb.remaining →
      exec .inboundBlockTransmit s =
        .next { s0 with
          ports := sent (rb.dataBody false taps)
          control := { s0.control with streamer := .streaming { rb with next := rb.next + 1, remaining := rb.remaining - 1 } } }) ∧
    (rb.remaining = 1 → (∀ c, r.owner = some c → (s.channel c).comparison.pendingPromote = false) →
      exec .inboundBlockTransmit s = .next { ended with ports := sent (rb.dataBody true taps) }) ∧
    ∀ c, rb.remaining = 1 → r.owner = some c → (s.channel c).comparison.pendingPromote = true →
      exec .inboundBlockTransmit s = .next { ended.applyPromotion c with ports := sent (rb.dataBody true taps) }

/-! ### The seed engine (R85 to R89) -/

/-- A seed step on a queue of one request: it rewrites as many of the request's next partitions as remain, at most 48, each by the request's
kind, and completes the request when none is left; it touches no other partition, record or list. Without the lock, or in OFFLINE, or on an
empty queue, the step changes nothing but its own grant. On any queue the step spends 48 partitions one after another, each on the request
then in service: a request that completes leaves the queue, and the rest of the budget goes to the next one; a COPY whose live set is read
with a mismatch writes zeros and raises COEFF_PARITY; a PATH_READY notice that finds a full queue is discarded as RaiseRule says (R59, R85
to R89). That the leftover budget goes to the next request, by R86, against R17's word on the seed queue after either order with a RELEASE
PATH, is the model's choice (log 33); so is that it goes there, and that the completed path becomes READY, in the step after a RESET
ADAPTATION, against R93's word (log 35). That a period's grant is a mark which the step uses up is the model's (log 4), and that nothing comes
about without it (log 3). -/
def Obligations.SeedStepEffect : Prop :=
  (∀ s : State, s.seed.granted = true →
    let used : State := { s with seed := { s.seed with granted := false } }
    (s.ports.lock ≠ .locked ∨ s.unit.opState = .offline ∨ s.seed.queue = [] → exec .seedStep s = .next used) ∧
      (s.ports.lock = .locked → s.unit.opState ≠ .offline → exec .seedStep s = .next (State.seedRun 48 used))) ∧
  (∀ s : State, s.seed.granted = false → exec .seedStep s = .next s) ∧
  (∀ (s : State) (m n : Nat), State.seedRun 0 s = s ∧ State.seedRun 1 s = s.seedOne ∧
    State.seedRun (m + n) s = State.seedRun n (State.seedRun m s)) ∧
  (∀ (s : State) (q : SeedRequest) (rest : List SeedRequest) (n : Nat), s.seed.queue = q :: rest → q.path < 64 → s.paths.length = 64 →
    s.pool.cells.wf = true → (s.path q.path).chain[q.first + q.done]? = some n → q.done < q.count →
    let r := s.path q.path
    let source := (s.pool.cells.read n).get r.live
    let x : Partition :=
      match q.kind with
      | .clear => { a := { taps := silence, upset := false }, b := { taps := silence, upset := false } }
      | .copy => (s.pool.cells.read n).put r.live.other { taps := if source.upset then silence else source.taps, upset := false }
    ∃ cells, cells.wf = true ∧ cells.read n = x ∧ (∀ k, k ≠ n → cells.read k = s.pool.cells.read k) ∧
      let v : State := { s with pool := { s.pool with cells := cells } }
      let u := if q.kind = .copy ∧ source.upset = true then v.raise .coeffParity (.path q.path (q.first + q.done)) none else v
      (q.done + 1 < q.count → s.seedOne = { u with seed := { s.seed with queue := { q with done := q.done + 1 } :: rest } }) ∧
      (q.done + 1 = q.count →
        let done : State :=
          { u with seed := { s.seed with queue := rest }, paths := s.paths.set q.path { r with state := .ready } }
        s.seedOne = if q.kind = .clear ∧ s.control.enablePath = true then done.postNotice (.pathReady q.path) none else done)) ∧
  ∀ (s : State) (q : SeedRequest), s.seed.granted = true → s.ports.lock = .locked → s.unit.opState ≠ .offline → TablesSized s →
    s.seed.queue = [q] → q.path < 64 → (s.path q.path).chain.Nodup → q.first + q.count = (s.path q.path).chain.length → q.done < q.count →
    s.control.notices.length < 8 →
    (q.kind = .copy → ∀ m ∈ (s.path q.path).chain, ((s.pool.cells.read m).get (s.path q.path).live).upset = false) →
    ∃ t, exec .seedStep s = .next t ∧
      let n := min 48 (q.count - q.done)
      let r := s.path q.path
      let done := q.done + n = q.count
      t.seed = { s.seed with queue := if done then [] else [{ q with done := q.done + n }], granted := false } ∧
      t.path q.path = (if done then { r with state := .ready } else r) ∧ (∀ p, p ≠ q.path → t.path p = s.path p) ∧
      (∀ k m, r.chain[k]? = some m →
        t.pool.cells.read m =
          if q.first + q.done ≤ k ∧ k < q.first + q.done + n then
            match q.kind with
            | .clear => { a := { taps := silence, upset := false }, b := { taps := silence, upset := false } }
            | .copy =>
              (s.pool.cells.read m).put r.live.other { taps := ((s.pool.cells.read m).get r.live).taps, upset := false }
          else s.pool.cells.read m) ∧
      (∀ m, m ∉ r.chain → t.pool.cells.read m = s.pool.cells.read m) ∧ t.pool.free = s.pool.free ∧
      t.control =
        { s.control with
          notices :=
            s.control.notices ++ (if done ∧ q.kind = .clear ∧ s.control.enablePath = true then [.pathReady q.path] else []) } ∧
      t.channels = s.channels ∧ t.references = s.references ∧ t.histories = s.histories ∧ t.unit = s.unit ∧ t.ports = s.ports ∧
      t.decision = s.decision ∧ t.comparator = s.comparator ∧ t.modulators = s.modulators

/-! ### The set comparator (R69 to R77) -/

/-- WINDOW_END is stage 7 of the block that ends the window, which adds the block to the window and takes the result; here with flag F and the
disturbance as the block finds them. A block that does not end its window adds to it and does nothing else. The result NONE: a frozen
channel, no path, a path SEEDING or read-held in a block of the window, or flag F in fewer than half of its blocks; the window restarts
and everything else stands. A taken result: last result, flags B and U and the two streaks by the window's sums, each comparison exact, and
the start of a new window; when no streak reaches its count nothing else; when the promote streak does, the promotion, or under a live
readback of one of the channel's paths the pending promote with both streaks 0; when the divergence streak does, the reseed (R69 to R73,
R76). What a promotion and a reseed do is PromotionAndReseed's. That the row is stage 7 of the block alone is the model's choice (log 2).
-/
def Obligations.WindowEndEffect : Prop :=
  (∀ (s : State) (c capture live background : Nat), s.unit.opState = .run → (s.channel c).mode = .cancel → (s.channel c).slot ≠ none →
    (s.channel c).parityBad = false → (s.channel c).comparison.count + 1 = s.comparator.window →
    exec (.windowEnd c capture live background) s =
      .next (s.accumulateWindow c
        { capture := capture, live := live, background := background
          far := decide (∃ p ∈ (s.channel c).paths, ∃ r, (s.path p).reference = some r ∧ (s.reference r).active = true)
          disturbed := decide (∃ p ∈ (s.channel c).paths, (s.path p).state = .seeding ∨ (s.path p).readHeld = true) })) ∧
  (∀ (s : State) (c : Nat) (x : WindowShare), (s.channel c).comparison.count + 1 < s.comparator.window →
    s.accumulateWindow c x =
      { s with
        channels := s.channels.set c
          { s.channel c with
            comparison :=
              { (s.channel c).comparison with
                count := (s.channel c).comparison.count + 1
                captureSum := (s.channel c).comparison.captureSum + x.capture
                liveSum := (s.channel c).comparison.liveSum + x.live
                backgroundSum := (s.channel c).comparison.backgroundSum + x.background
                farCount := if x.far then (s.channel c).comparison.farCount + 1 else (s.channel c).comparison.farCount
                disturbed := (s.channel c).comparison.disturbed || x.disturbed } } }) ∧
  ∀ (s : State) (c : Nat) (x : WindowShare), (s.channel c).comparison.count + 1 = s.comparator.window →
    let ch := s.channel c
    let m := ch.comparison
    let farCount := m.farCount + if x.far then 1 else 0
    let nothing := ch.frozen = true ∨ ch.paths = [] ∨ m.disturbed = true ∨ x.disturbed = true ∨ 2 * farCount < s.comparator.window
    (nothing →
      s.accumulateWindow c x =
        { s with
          channels := s.channels.set c
            { ch with
              comparison := { m with count := 0, captureSum := 0, liveSum := 0, backgroundSum := 0, farCount := 0, disturbed := false } } }) ∧
    (¬nothing →
      let captureSum := m.captureSum + x.capture
      let liveSum := m.liveSum + x.live
      let backgroundSum := m.backgroundSum + x.background
      let better := backgroundSum ^ 20 * 10 ^ s.comparator.promoteMargin ≤ liveSum ^ 20 ∧ ¬(liveSum = 0 ∧ backgroundSum = 0)
      let worse := ¬better ∧ liveSum ^ 20 * 10 ^ s.comparator.divergenceMargin ≤ backgroundSum ^ 20 ∧ ¬(liveSum = 0 ∧ backgroundSum = 0)
      let promote := if better then m.promoteStreak + 1 else 0
      let diverge := if worse then m.divergenceStreak + 1 else 0
      let judged : ComparisonState :=
        { count := 0, captureSum := 0, liveSum := 0, backgroundSum := 0, farCount := 0, disturbed := false,
          promoteStreak := promote, divergenceStreak := diverge, reseedCount := m.reseedCount, pendingPromote := m.pendingPromote,
          erle := some (erleOf captureSum liveSum)
          liveLevel := some (wholeLevel liveSum (s.comparator.window * fullSine))
          backgroundLevel := some (wholeLevel backgroundSum (s.comparator.window * fullSine))
          flagB := decide (backgroundSum < liveSum)
          flagU := decide (captureSum ^ 20 < liveSum ^ 20 * 10 ^ s.comparator.threshold) }
      let result := fun (j : ComparisonState) => ({ s with channels := s.channels.set c { ch with comparison := j } } : State)
      let restarted := fun (v : State) =>
        ({ v with
          channels := v.channels.set c
            { v.channel c with
              comparison :=
                { (v.channel c).comparison with
                  count := 0, captureSum := 0, liveSum := 0, backgroundSum := 0, farCount := 0, disturbed := false } } } : State)
      (promote < s.comparator.promoteCount → diverge < s.comparator.divergenceCount → s.accumulateWindow c x = result judged) ∧
      (s.comparator.promoteCount ≤ promote → (∃ p ∈ ch.paths, ∃ rb, s.control.streamer = .streaming rb ∧ rb.path = p ∧ rb.set = .live) →
        s.accumulateWindow c x = result { judged with pendingPromote := true, promoteStreak := 0, divergenceStreak := 0 }) ∧
      (s.comparator.promoteCount ≤ promote → ¬(∃ p ∈ ch.paths, ∃ rb, s.control.streamer = .streaming rb ∧ rb.path = p ∧ rb.set = .live) →
        s.accumulateWindow c x = restarted ((result judged).applyPromotion c)) ∧
      (promote < s.comparator.promoteCount → s.comparator.divergenceCount ≤ diverge →
        s.accumulateWindow c x = restarted ((result judged).applyReseed c)))

/-- The levels a result gives are rounded down and limited: the ERLE in whole dB from 0 to 60, a level in whole dB from -120 to 0, the
residual level in steps of 0.25 dB from -120 to 0 dBFS (R71, R121). 0 dBFS is the energy of a full-scale sine: over 64 samples, 64 times half
of the square of its peak, with full scale 2^23 in the codes of R172, 2^51 in squared codes (R47; that the peak is 2^23 and the energy of the
sine half of its square is the model's reading, log 15). -/
def Obligations.LevelsRoundedDown : Prop :=
  (∀ capture live : Nat, 0 < live →
    erleOf capture live ≤ 60 ∧ (0 < erleOf capture live → live ^ 10 * 10 ^ erleOf capture live ≤ capture ^ 10) ∧
      (erleOf capture live < 60 → capture ^ 10 < live ^ 10 * 10 ^ (erleOf capture live + 1))) ∧
  (∀ capture : Nat, erleOf capture 0 = if 0 < capture then 60 else 0) ∧
  (∀ sum reference : Nat, 0 < reference →
    -120 ≤ wholeLevel sum reference ∧ wholeLevel sum reference ≤ 0 ∧
      (-120 < wholeLevel sum reference → reference ^ 10 ≤ sum ^ 10 * 10 ^ (-wholeLevel sum reference).toNat) ∧
      (wholeLevel sum reference < 0 → sum ^ 10 * 10 ^ (-wholeLevel sum reference - 1).toNat < reference ^ 10)) ∧
  (∀ sum : Nat,
    -480 ≤ quarterLevel sum ∧ quarterLevel sum ≤ 0 ∧
      (-480 < quarterLevel sum → fullSine ^ 40 ≤ sum ^ 40 * 10 ^ (-quarterLevel sum).toNat) ∧
      (quarterLevel sum < 0 → sum ^ 40 * 10 ^ (-quarterLevel sum - 1).toNat < fullSine ^ 40)) ∧
  2 * fullSine = 64 * (2 ^ 23) ^ 2 ∧ fullSine = 2 ^ 51

/-- A promotion and a reseed of a channel whose listed paths are in the table and distinct: the live sets flipped or kept, every path SEEDING
with its COPY over the whole chain in list order, streaks 0 and pending promote no; a promotion sets the reseed count to 0 and the
disturbance mark, a reseed raises the count below its limit and, when it gets there, raises CHANNEL_UNSTABLE with the channel as subject and no
tag, as RaiseRule writes it out; nothing else changes (R74, R76, R77). PROMOTE CHANNEL: the checks of R79 in their order, then the promotion
(R79). -/
def Obligations.PromotionAndReseed : Prop :=
  (∀ (s : State) (c : Nat), c < 24 → s.channels.length = 24 → s.paths.length = 64 → (s.channel c).paths.Nodup →
    (∀ p ∈ (s.channel c).paths, p < 64) →
    let copies := (s.channel c).paths.map fun p =>
      ({ path := p, kind := .copy, first := 0, count := (s.path p).chain.length, done := 0 } : SeedRequest)
    let m := (s.channel c).comparison
    (let t := s.applyPromotion c
     (∀ p ∈ (s.channel c).paths, t.path p = { s.path p with live := (s.path p).live.other, state := .seeding }) ∧
       (∀ p, p ∉ (s.channel c).paths → t.path p = s.path p) ∧ t.seed = { s.seed with queue := s.seed.queue ++ copies } ∧
       t.channels = s.channels.set c
         { s.channel c with
           comparison :=
             { m with promoteStreak := 0, divergenceStreak := 0, reseedCount := 0, pendingPromote := false, disturbed := true } } ∧
       t.pool = s.pool ∧ t.unit = s.unit ∧ t.control = s.control ∧ t.ports = s.ports ∧ t.references = s.references ∧
       t.histories = s.histories ∧ t.modulators = s.modulators ∧ t.decision = s.decision ∧ t.comparator = s.comparator) ∧
    (let t := s.applyReseed c
     let told := if m.reseedCount + 1 = s.comparator.reseedLimit then s.raise .channelUnstable (.channel c) none else s
     (∀ p ∈ (s.channel c).paths, t.path p = { s.path p with state := .seeding }) ∧
       (∀ p, p ∉ (s.channel c).paths → t.path p = s.path p) ∧ t.seed = { s.seed with queue := s.seed.queue ++ copies } ∧
       t.channels = s.channels.set c
         { s.channel c with
           comparison :=
             { m with
               promoteStreak := 0, divergenceStreak := 0, pendingPromote := false,
               reseedCount := if m.reseedCount < s.comparator.reseedLimit then m.reseedCount + 1 else m.reseedCount } } ∧
       t.unit = told.unit ∧ t.control = told.control ∧ t.modulators = told.modulators ∧
       (m.reseedCount + 1 = s.comparator.reseedLimit → t.unit.isSet .channelUnstable = true) ∧ t.pool = s.pool ∧ t.ports = s.ports ∧
       t.references = s.references ∧ t.histories = s.histories ∧ t.decision = s.decision ∧ t.comparator = s.comparator)) ∧
  ∀ (s : State) (tag channel : Byte), Accepting s →
    let paths := (s.channel channel.toNat).paths
    let busy := ∃ p ∈ paths, (s.path p).state = .seeding ∨ ∃ rb, s.control.streamer = .streaming rb ∧ rb.path = p
    let result := exec (.promoteChannel tag channel) s
    (23 < channel.toNat → result = .next (replied s tag 0x31 .range [])) ∧
    (channel.toNat ≤ 23 → paths = [] → result = .next (replied s tag 0x31 .state [])) ∧
    (channel.toNat ≤ 23 → paths ≠ [] → busy → result = .next (replied s tag 0x31 .busy [])) ∧
    (channel.toNat ≤ 23 → paths ≠ [] → ¬busy → result = .next (replied (s.applyPromotion channel.toNat) tag 0x31 .done []))

/-! ### Channel blocks (R31 to R34, R47, R50, R97 to R105, R117 to R121) -/

/-- A channel that stops after stage 1, and one whose record is read with a mismatch: what its slot carries, the clip run of the test on the
slot as it arrived, and CAPTURE_CLIP at the 32nd clipped block in a row (R31 to R34). CAPTURE_CLIP: the clip run becomes 32 and the class is raised with the channel as subject
(R34). That a record read with a mismatch raises TABLE_PARITY whatever its slot, slot none included, is the model's choice (log 19), and that
CAPTURE_CLIP is this transition alone (log 2). -/
def Obligations.ClipTestAndHeldSlots : Prop :=
  (∀ (op : OpState) (action : SafeAction) (arrived slots : List Slot) (s : State) (c : Nat),
    ((s.channel c).parityBad = true →
      State.channelBlock op action arrived (slots, s) c = (slots, s.raise .tableParity (.channel c) none)) ∧
    ((s.channel c).parityBad = false → (s.channel c).slot = none → State.channelBlock op action arrived (slots, s) c = (slots, s)) ∧
    ∀ k, (s.channel c).parityBad = false → (s.channel c).slot = some k → ¬(op = .run ∧ (s.channel c).mode = .cancel) →
      let capture := arrived.getD k silence
      let clipped := ∃ x ∈ capture, x = 0x7FFFFF#24 ∨ x = 0x800000#24
      (State.channelBlock op action arrived (slots, s) c).1 =
          slots.set k
            (if op = .run ∧ (s.channel c).mode = .mute ∨ op = .safe ∧ action = .mute then silence else capture) ∧
        (¬clipped → (State.channelBlock op action arrived (slots, s) c).2 =
          { s with channels := s.channels.set c { s.channel c with clipRun := 0 } }) ∧
        (clipped → (s.channel c).clipRun < 31 → (State.channelBlock op action arrived (slots, s) c).2 =
          { s with channels := s.channels.set c { s.channel c with clipRun := (s.channel c).clipRun + 1 } }) ∧
        (clipped → (s.channel c).clipRun = 31 → (State.channelBlock op action arrived (slots, s) c).2 =
          ({ s with channels := s.channels.set c { s.channel c with clipRun := 32 } } : State).raise .captureClip (.channel c) none) ∧
        (clipped → 32 ≤ (s.channel c).clipRun → (State.channelBlock op action arrived (slots, s) c).2 = s)) ∧
  (∀ (s : State) (c : Nat), (s.channel c).slot ≠ none → (s.channel c).parityBad = false → (s.channel c).clipRun = 31 →
    exec (.captureClip c) s =
      .next (({ s with channels := s.channels.set c { s.channel c with clipRun := 32 } } : State).raise .captureClip (.channel c) none))

/-- The detector's table, and NEAR_HANGOVER_EXPIRY, which is its last row at a hangover count of 0 or 1 (R98). ACTIVITY_HANGOVER_EXPIRY: an
ACTIVE reference with hangover count 0 becomes IDLE (R47). That the two rows are these transitions alone is the model's choice (log 2). -/
def Obligations.HangoverExpiries : Prop :=
  ((∀ d : DetectorState,
    (d.nearActive = false →
      d.update true =
          (if d.enterDebounce ≤ d.debounce + 1 then { d with nearActive := true, hangover := d.nearHangover, debounce := 0 }
          else { d with debounce := d.debounce + 1 }) ∧
        d.update false = { d with debounce := 0 }) ∧
    (d.nearActive = true →
      d.update true = { d with hangover := d.nearHangover } ∧
        d.update false =
          { d with hangover := d.hangover - 1, nearActive := decide (d.hangover - 1 ≠ 0) })) ∧
  ∀ (s : State) (c : Nat), s.unit.opState = .run → (s.channel c).mode = .cancel → (s.channel c).slot ≠ none →
    (s.channel c).parityBad = false → (s.channel c).detector.nearActive = true → (s.channel c).detector.hangover ≤ 1 →
    exec (.nearHangoverExpiry c) s =
      .next { s with
        channels := s.channels.set c
          { s.channel c with detector := { (s.channel c).detector with hangover := 0, nearActive := false } } }) ∧
  (∀ (s : State) (r : Nat), (s.reference r).active = true → (s.reference r).hangoverCount = 0 →
    exec (.activityHangoverExpiry r) s = .next { s with references := s.references.set r { s.reference r with active := false } })

/-- The raw near indication by its two exact comparisons, the talk state from F and near-active, flags N and D of it, when an entry fits, and
the first entry that fits: entries read with a mismatch are passed over and reported, entries after the match are not read, and no fit gives
the default action (R97, R101, R103, R105, R106). -/
def Obligations.TalkStateAndMatching : Prop :=
  (∀ (d : DetectorState) (floor : Int) (residual estimate : Nat),
    let threshold := floor + 2 * (d.nearThreshold : Int)
    rawNear d floor residual estimate = true ↔
      fullSine ^ 40 * 10 ^ threshold.toNat ≤ residual ^ 40 * 10 ^ (-threshold).toNat ∧ estimate ^ 20 ≤ residual ^ 20 * 10 ^ d.echoMargin) ∧
  (talkState false false = .quiet ∧ talkState true false = .far ∧ talkState false true = .near ∧ talkState true true = .double) ∧
  (∀ t : TalkState, (t.isNear = true ↔ t = .near ∨ t = .double) ∧ (t.isDouble = true ↔ t = .double)) ∧
  (∀ (e : DecisionEntry) (g : TalkFlags),
    e.fits g = true ↔
      e.valid = true ∧ (e.mask.getLsbD 6 = true → g.f = e.want.getLsbD 6) ∧ (e.mask.getLsbD 5 = true → g.n = e.want.getLsbD 5) ∧
        (e.mask.getLsbD 4 = true → g.d = e.want.getLsbD 4) ∧ (e.mask.getLsbD 3 = true → g.c = e.want.getLsbD 3) ∧
        (e.mask.getLsbD 2 = true → g.b = e.want.getLsbD 2) ∧ (e.mask.getLsbD 1 = true → g.s = e.want.getLsbD 1) ∧
        (e.mask.getLsbD 0 = true → g.u = e.want.getLsbD 0)) ∧
  ∀ (flags : TalkFlags) (entries : List DecisionEntry) (i : Nat),
    (∀ before e after, entries = before ++ e :: after → e.parityBad = false → e.fits flags = true →
      (∀ x ∈ before, x.parityBad = true ∨ x.fits flags = false) →
        (matchEntries flags i entries).1 = e.action ∧
          (matchEntries flags i entries).2 = (before.zipIdx i).filterMap fun x => if x.1.parityBad then some x.2 else none) ∧
    ((∀ x ∈ entries, x.parityBad = true ∨ x.fits flags = false) →
      (matchEntries flags i entries).1 = { adapt := false, stepScale := 0, target := 0, fill := false } ∧
        (matchEntries flags i entries).2 = (entries.zipIdx i).filterMap fun x => if x.1.parityBad then some x.2 else none)

/-- The current gain falls by the attack, no further than the target gain, rises by the release, no further than it, and keeps its value
there; the floor estimate falls at once and climbs by at most 0.25 dB, and N holds it; noise moves the position by 64. The noise register at
a position is the register of position 0 moved on that many times by the feedback of R120 (R117, R119 to R121). -/
def Obligations.SuppressorAndNoise : Prop :=
  (∀ (p : SuppressorState) (near fill : Bool) (energy target : Nat),
    let goal : Int := -(2 * (target : Int))
    let next := p.update near energy target fill
    (goal < p.gain → next.gain = max goal (p.gain - p.attack)) ∧ (p.gain < goal → next.gain = min goal (p.gain + p.release)) ∧
      (p.gain = goal → next.gain = p.gain) ∧ (near = true → next.floor = p.floor) ∧
      (near = false →
        (quarterLevel energy < p.floor → next.floor = quarterLevel energy) ∧
          (p.floor + 1 < quarterLevel energy → next.floor = p.floor + 1) ∧
          (p.floor ≤ quarterLevel energy → quarterLevel energy ≤ p.floor + 1 → next.floor = quarterLevel energy)) ∧
      next.noisePos = (if fill = true ∧ next.gain < -12 then (p.noisePos + 64) % 8388607 else p.noisePos) ∧
      next.attack = p.attack ∧ next.release = p.release ∧ next.offset = p.offset) ∧
  noiseRegister 0 = BitVec.allOnes 23 ∧
    ∀ p, p + 1 < 8388608 →
      noiseRegister (p + 1) =
        (noiseRegister p <<< 1) ||| (if (noiseRegister p).getLsbD 22 ^^ (noiseRegister p).getLsbD 17 then 1 else 0)

/-- The output samples of stage 6. The linear gain is 1 at 0 dB and otherwise the nearest 24-bit fraction to 10^(gain/40), the gain being in
steps of 0.5 dB. Without noise an output sample is the residual times the linear gain, rounded and limited. With fill and a gain below -6 dB
it is the nearest code to the exact value of the residual times the linear gain plus, or by the noise bit minus, the amplitude whose square
is the energy at the fill level, half of 10^(fill level/40) in steps of 0.25 dB, times one less the linear gain, limited; the noise bits are
bit 23 of the register at the positions from the noise position on (R118 to R120). -/
def Obligations.OutputSamplesExact : Prop :=
  (linearGain 0 = 8388608 ∧
    ∀ n : Nat, 1 ≤ n → n ≤ 90 →
      let g := linearGain (-(n : Int))
      1 ≤ g ∧ (2 * g - 1) ^ 40 * 10 ^ n ≤ 2 ^ 960 ∧ 2 ^ 960 ≤ (2 * g + 1) ^ 40 * 10 ^ n) ∧
  (∀ (residual : Slot) (gain : Int) (fill : Bool) (fillLevel : Int) (position : Nat), fill = false ∨ -12 ≤ gain →
    suppressedSamples residual gain fill fillLevel position =
      residual.map fun x => limit24 (roundDiv (x.toInt * linearGain gain) 8388608)) ∧
  ∀ (residual : Slot) (gain : Int) (fillLevel : Int) (position n : Nat) (x : Sample), -90 ≤ gain → gain < -12 → -504 ≤ fillLevel →
    fillLevel ≤ 24 → position < 8388607 → residual.length = 64 → residual[n]? = some x →
    let scale : ℝ := linearGain gain / 8388608
    let noise : ℝ := 8388608 * (1 - scale) * Real.sqrt ((1 / 2) * (10 : ℝ) ^ ((fillLevel : ℝ) / 40))
    ∃ v : Int, (suppressedSamples residual gain true fillLevel position)[n]? = some (limit24 v) ∧
      |(v : ℝ) - (x.toInt * scale + (if (noiseRegister ((position + n) % 8388607)).getLsbD 22 then noise else -noise))| ≤ 1 / 2

/-- The aligned reference samples: sample n - j of the aligned block, or sample 64 + n - j of the older neighbour, in the order of taps for an
output sample and in the order of output samples for a tap; an age beyond the history reads as zero (R50). -/
def Obligations.AlignedSamples : Prop :=
  ∀ (history : List Slot) (age n j : Nat), (∀ b ∈ history, b.length = 64) → n < 64 → j < 64 →
    let sample := if j ≤ n then (history.getD age silence).getD (n - j) 0 else (history.getD (age + 1) silence).getD (64 + n - j) 0
    (alignedForSample (alignedRun history age) n)[j]? = some sample.toInt ∧ (alignedForTap (alignedRun history age) j)[n]? = some sample.toInt

/-- Rounding to the nearest with halfway cases away from zero, limiting to full scale, a partition's estimate as the sum of taps times aligned
reference samples, a residual sample, and a tap's move. Stage 2 of a channel block: both residuals, capture less the sum over the channel's
paths and their partitions of the estimates by the live and by the other set, a path whose reference is read with a mismatch and a set read
with one adding zero, and the four energies as sums of squares (R40, R51 to R53, R57, R59; spec/00 section 5). -/
def Obligations.SampleArithmetic : Prop :=
  (∀ (num : Int) (den : Nat), 0 < den →
    let q := roundDiv num den
    2 * (num - q * den).natAbs ≤ den ∧ (2 * (num - q * den).natAbs = den → num.natAbs < q.natAbs * den)) ∧
  (∀ v : Int,
    (-8388608 ≤ v → v ≤ 8388607 → (limit24 v).toInt = v) ∧ (v < -8388608 → limit24 v = 0x800000#24) ∧
      (8388607 < v → limit24 v = 0x7FFFFF#24)) ∧
  (∀ (taps : Slot) (history : List Slot) (age n : Nat), taps.length = 64 → (∀ b ∈ history, b.length = 64) → n < 64 →
    (partitionEstimate taps (alignedRun history age))[n]? =
      some (((List.range 64).map fun j =>
        let sample := if j ≤ n then (history.getD age silence).getD (n - j) 0 else (history.getD (age + 1) silence).getD (64 + n - j) 0
        (taps.getD j 0).toInt * sample.toInt).sum)) ∧
  (∀ (capture : Slot) (sum : List Int) (n : Nat) (x : Sample) (e : Int), capture[n]? = some x → sum[n]? = some e →
    (residualSamples capture sum)[n]? = some (limit24 (roundDiv (x.toInt * 8388608 - e) 8388608))) ∧
  (∀ b : Slot, squareSum b = (b.map fun x => x.toInt.natAbs ^ 2).sum) ∧
  (∀ (s : State) (paths : List Nat) (capture : Slot), capture.length = 64 →
    (∀ h ∈ s.histories, ∀ b ∈ h, b.length = 64) →
    (∀ n, (s.pool.cells.read n).a.taps.length = 64 ∧ (s.pool.cells.read n).b.taps.length = 64) →
    let signals := formSignals capture (paths.map s.readForBlock)
    let estimate := fun (pick : PathRecord → SetId) (n : Nat) =>
      (paths.map fun p =>
        let r := s.path p
        let ref := (r.reference.map s.reference).getD Reference.initial
        let history := (r.reference.map s.history).getD silentHistory
        if ref.parityBad = true then 0
        else
          (r.chain.zipIdx.map fun cell =>
            let stored := (s.pool.cells.read cell.1).get (pick r)
            let age := ref.bulk + cell.2
            if stored.upset = true then 0
            else
              ((List.range 64).map fun j =>
                let sample :=
                  if j ≤ n then (history.getD age silence).getD (n - j) 0 else (history.getD (age + 1) silence).getD (64 + n - j) 0
                (stored.taps.getD j 0).toInt * sample.toInt).sum).sum).sum
    let residual := fun (pick : PathRecord → SetId) =>
      (List.range 64).map fun n => limit24 (roundDiv ((capture.getD n 0).toInt * 8388608 - estimate pick n) 8388608)
    signals.live = residual (fun r => r.live) ∧ signals.background = residual (fun r => r.live.other) ∧
      signals.captureEnergy = squareSum capture ∧
      signals.estimateEnergy = squareSum ((List.range 64).map fun n => limit24 (roundDiv (estimate (fun r => r.live) n) 8388608)) ∧
      signals.liveEnergy = squareSum signals.live ∧ signals.backgroundEnergy = squareSum signals.background) ∧
  ∀ (divisor : Nat) (residual : List Int) (history : List Slot) (age j : Nat) (taps : Slot), taps.length = 64 → residual.length = 64 →
    (∀ b ∈ history, b.length = 64) → j < 64 →
    (movedTaps divisor residual (alignedRun history age) taps)[j]? =
      some (limit24 (roundDiv
        ((taps.getD j 0).toInt * divisor +
          83886080000000 *
            ((List.range 64).map fun n =>
              let sample :=
                if j ≤ n then (history.getD age silence).getD (n - j) 0 else (history.getD (age + 1) silence).getD (64 + n - j) 0
              residual.getD n 0 * sample.toInt).sum)
        divisor))

/-- The adaptation of one path in a block: the background set of each partition of its chain moves by the divisor of the path, with fresh
parity, and nothing else changes; the taps of a path whose span is silent do not move; a path that does not adapt changes nothing (R54 to
R57). That R55's word on a silent span holds where the block behind the span is not silent, against R50 and R57, is the model's choice
(log 34). -/
def Obligations.AdaptationEffect : Prop :=
  ∀ (s : State) (frozen : Bool) (action : Action) (residual : List Int) (p : Nat),
    let r := s.path p
    let trusted := ∀ k, r.reference = some k → (s.reference k).parityBad = false
    let t := s.adaptPath frozen action residual (s.readForBlock p)
    let adapts := action.adapt = true ∧ r.state = .ready ∧ r.readHeld = false ∧ frozen = false ∧ trusted
    (¬adapts → t = s) ∧
    (adapts → s.pool.cells.wf = true → r.chain.Nodup →
      let bulk := ((r.reference.map s.reference).getD Reference.initial).bulk
      let history := (r.reference.map s.history).getD silentHistory
      let power := ((List.range r.chain.length).map fun k => squareSum (history.getD (bulk + k) silence)).sum
      let divisor := 2 ^ (r.step + action.stepScale) * (10000000 * power + 32 * r.chain.length * 2 ^ 46)
      ∃ cells, t = { s with pool := { s.pool with cells := cells } } ∧
        (∀ k n, r.chain[k]? = some n →
          let old := (s.pool.cells.read n).get r.live.other
          let taps := if old.upset then silence else old.taps
          cells.read n =
            (s.pool.cells.read n).put r.live.other
              { taps := if power = 0 then taps else movedTaps divisor residual (alignedRun history (bulk + k)) taps,
                upset := false }) ∧
        ∀ n, n ∉ r.chain → cells.read n = s.pool.cells.read n)

/-- Stages 1 to 7 of a CANCEL channel's block in RUN, on every state: the clip test with its raise, the mismatches met in reading the paths (each
one's reference record, then its chain, the live set before the background set) and the decision entries, each raised, the adaptation of
each path on the background residual, the fields of the channel, the output samples in its slot, and the window (R31, R33, R34, R40, R48,
R49, R52, R59, R97 to R106, R116 to R121, R69). The order in which a block's mismatches are raised is the model's choice (log 9). The parts
are stated by AdaptationEffect, WindowEndEffect, SampleArithmetic, TalkStateAndMatching and OutputSamplesExact. The second clause is the
plain case in full: no mismatch, no adaptation, no clip raise, a window that goes on, and nothing else changed. -/
def Obligations.CancelBlockStages : Prop :=
  (∀ (safeAction : SafeAction) (arrived slots : List Slot) (s : State) (c k : Nat),
    let ch := s.channel c
    let capture := arrived.getD k silence
    let clipped := isClipped capture
    ch.parityBad = false → ch.slot = some k → ch.mode = .cancel →
    let counted : State :=
      { s with
        channels := s.channels.set c
          { ch with clipRun := if clipped = true then (if ch.clipRun < 32 then ch.clipRun + 1 else ch.clipRun) else 0 } }
    let s1 := if clipped = true ∧ ch.clipRun = 31 then counted.raise .captureClip (.channel c) none else counted
    let signals := formSignals capture (ch.paths.map s.readForBlock)
    let far := decide (∃ p ∈ ch.paths, ∃ r, (s.path p).reference = some r ∧ (s.reference r).active = true)
    let seeding := decide (∃ p ∈ ch.paths, (s.path p).state = .seeding)
    let held := decide (∃ p ∈ ch.paths, (s.path p).readHeld = true)
    let detector := ch.detector.update (rawNear ch.detector ch.suppressor.floor signals.liveEnergy signals.estimateEnergy)
    let talk := talkState far detector.nearActive
    let flags : TalkFlags :=
      { f := far, n := talk.isNear, d := talk.isDouble, c := clipped, b := ch.comparison.flagB, s := seeding, u := ch.comparison.flagU }
    let matched := matchEntries flags 0 (if s.decision.active = 0 then s.decision.bank0 else s.decision.bank1)
    let suppressor := ch.suppressor.update flags.n signals.liveEnergy matched.1.target matched.1.fill
    let pathMismatches := ch.paths.flatMap fun p =>
      let r := s.path p
      (match r.reference with
        | some j => if (s.reference j).parityBad then [((FaultClass.tableParity, Subject.reference j) : FaultClass × Subject)] else []
        | none => []) ++
        r.chain.zipIdx.flatMap fun cell =>
          (if ((s.pool.cells.read cell.1).get r.live).upset then [(FaultClass.coeffParity, Subject.path p cell.2)] else []) ++
            (if ((s.pool.cells.read cell.1).get r.live.other).upset then [(FaultClass.coeffParity, Subject.path p cell.2)] else [])
    let entryMismatches := matched.2.map fun e => ((FaultClass.tableParity, Subject.bankEntry s.decision.active e) : FaultClass × Subject)
    let s2 := (pathMismatches ++ entryMismatches).foldl (fun v f => v.raise f.1 f.2 none) s1
    let s3 := ch.paths.foldl
      (fun v p => v.adaptPath ch.frozen matched.1 (signals.background.map BitVec.toInt) (s.readForBlock p)) s2
    let s4 : State :=
      { s3 with
        channels := s3.channels.set c
          { s1.channel c with detector := detector, last := { talk := talk, flags := flags }, suppressor := suppressor } }
    State.channelBlock .run safeAction arrived (slots, s) c =
      (slots.set k
        (suppressedSamples signals.live suppressor.gain matched.1.fill (suppressor.floor + 2 * suppressor.offset) ch.suppressor.noisePos),
        s4.accumulateWindow c
          { capture := squareSum capture, live := signals.liveEnergy, background := signals.backgroundEnergy, far := far,
            disturbed := seeding || held })) ∧
  ∀ (safeAction : SafeAction) (arrived slots : List Slot) (s : State) (c k : Nat),
    let ch := s.channel c
    let capture := arrived.getD k silence
    let clipped := isClipped capture
    ch.parityBad = false → ch.slot = some k → ch.mode = .cancel → ch.comparison.count + 1 < s.comparator.window →
    (clipped = true → ch.clipRun ≠ 31) →
    (∀ p ∈ ch.paths, (∀ r, (s.path p).reference = some r → (s.reference r).parityBad = false) ∧
      ∀ m ∈ (s.path p).chain, (s.pool.cells.read m).a.upset = false ∧ (s.pool.cells.read m).b.upset = false) →
    (∀ e ∈ (if s.decision.active = 0 then s.decision.bank0 else s.decision.bank1), e.parityBad = false) →
    let signals := formSignals capture (ch.paths.map s.readForBlock)
    let far := decide (∃ p ∈ ch.paths, ∃ r, (s.path p).reference = some r ∧ (s.reference r).active = true)
    let seeding := decide (∃ p ∈ ch.paths, (s.path p).state = .seeding)
    let held := decide (∃ p ∈ ch.paths, (s.path p).readHeld = true)
    let detector := ch.detector.update (rawNear ch.detector ch.suppressor.floor signals.liveEnergy signals.estimateEnergy)
    let talk := talkState far detector.nearActive
    let flags : TalkFlags :=
      { f := far, n := talk.isNear, d := talk.isDouble, c := clipped, b := ch.comparison.flagB, s := seeding, u := ch.comparison.flagU }
    let act := (matchEntries flags 0 (if s.decision.active = 0 then s.decision.bank0 else s.decision.bank1)).1
    let suppressor := ch.suppressor.update flags.n signals.liveEnergy act.target act.fill
    act.adapt = false →
    State.channelBlock .run safeAction arrived (slots, s) c =
      (slots.set k
        (suppressedSamples signals.live suppressor.gain act.fill (suppressor.floor + 2 * suppressor.offset) ch.suppressor.noisePos),
        { s with
          channels := s.channels.set c
            { ch with
              clipRun := if clipped = true then (if ch.clipRun < 32 then ch.clipRun + 1 else ch.clipRun) else 0
              detector := detector
              last := { talk := talk, flags := flags }
              suppressor := suppressor
              comparison :=
                { ch.comparison with
                  count := ch.comparison.count + 1
                  captureSum := ch.comparison.captureSum + squareSum capture
                  liveSum := ch.comparison.liveSum + signals.liveEnergy
                  backgroundSum := ch.comparison.backgroundSum + signals.backgroundEnergy
                  farCount := if far = true then ch.comparison.farCount + 1 else ch.comparison.farCount
                  disturbed := ch.comparison.disturbed || (seeding || held) } } })

/-- The CRC: all ones at the start, each bit fed from the most significant one by the generator, and the register over bytes and two further
bytes is zero exactly when those two are the CRC (R174). -/
def Obligations.CrcResidueIsZero : Prop :=
  crc [] = 0xFFFF ∧ (∀ (bytes : List Byte) (b : Byte), crc (bytes ++ [b]) = crcByte (crc bytes) b) ∧
    (∀ (r : BitVec 16) (b : Byte), crcByte r b =
      [b.getLsbD 7, b.getLsbD 6, b.getLsbD 5, b.getLsbD 4, b.getLsbD 3, b.getLsbD 2, b.getLsbD 1, b.getLsbD 0].foldl
        (fun (r : BitVec 16) (bit : Bool) => (r <<< 1) ^^^ (if r.getLsbD 15 != bit then 0b0001000000100001 else 0)) r) ∧
    ∀ (bytes : List Byte) (x y : Byte), crc (bytes ++ [x, y]) = 0 ↔ halfBytes (crc bytes) = [x, y]

/-! ### The commands of chapter 1 -/

/-- ALLOCATE PATH with every check passed: the lowest UNUSED record, the first partitions of the free list, the CLEAR, the path list, the
comparison state and the pending promote (R13, R14). ALLOCATE PATH refused: each check of R13 in its order; nothing but the reply and a raise
changes. A reference record or a channel record read with a parity mismatch raises TABLE_PARITY, as RaiseRule writes it out, and the checks
and the effect are those of the values as read, refused or not (R13, R35). That check 2 reads the reference's record and check 4 the channel's
is the model's choice (log 16). -/
def Obligations.AllocatePathEffect : Prop :=
  ∀ (s : State) (tag channel reference : Byte) (length : Half) (step : Byte), Accepting s →
    let result := exec (.allocatePath tag channel reference length step) s
    let inRange :=
      channel.toNat ≤ 23 ∧ reference.toNat ≤ 7 ∧ 1 ≤ length.toNat ∧ length.toNat ≤ 448 ∧ 1 ≤ step.toNat ∧ step.toNat ≤ 10
    let ref := s.reference reference.toNat
    let ch := s.channel channel.toNat
    let fresh := ∀ q ∈ ch.paths, (s.path q).reference ≠ some reference.toNat
    let read2 := if ref.parityBad then s.raise .tableParity (.reference reference.toNat) (some tag) else s
    let read4 := if ch.parityBad then read2.raise .tableParity (.channel channel.toNat) (some tag) else read2
    (¬inRange → result = .next (replied s tag 0x01 .range [])) ∧
      (inRange → 512 < ref.bulk + length.toNat → result = .next (replied read2 tag 0x01 .range [])) ∧
      (inRange → ref.bulk + length.toNat ≤ 512 → ref.slot = none → result = .next (replied read2 tag 0x01 .conflict [])) ∧
      (inRange → ref.bulk + length.toNat ≤ 512 → ref.slot ≠ none → ¬fresh → result = .next (replied read4 tag 0x01 .conflict [])) ∧
      (inRange → ref.bulk + length.toNat ≤ 512 → ref.slot ≠ none → fresh →
        4 ≤ ch.paths.length ∨ (∀ p < 64, (s.path p).state ≠ .unused) ∨ s.pool.free.length < length.toNat →
        result = .next (replied read4 tag 0x01 .noResource [])) ∧
      ∀ p, inRange → ref.bulk + length.toNat ≤ 512 → ref.slot ≠ none → fresh → ch.paths.length < 4 → p < 64 → (s.path p).state = .unused →
        (∀ q < p, (s.path q).state ≠ .unused) → length.toNat ≤ s.pool.free.length →
        result =
          .next (replied
            { read4 with
              pool := { s.pool with free := s.pool.free.drop length.toNat }
              paths := s.paths.set p
                { state := .seeding, owner := some channel.toNat, reference := some reference.toNat, chain := s.pool.free.take length.toNat,
                  live := .a, step := step.toNat, readHeld := false }
              seed :=
                { s.seed with
                  queue := s.seed.queue ++ [{ path := p, kind := .clear, first := 0, count := length.toNat, done := 0 }] }
              channels := s.channels.set channel.toNat
                { ch with paths := ch.paths ++ [p], comparison := comparisonReset ch.comparison false } }
            tag 0x01 .done [byteOf p])

/-- RELEASE PATH: the request out of the queue, the readback aborted, the chain at the free tail, the record UNUSED, the path list without it,
the comparison state reset and the pending promote cleared; refused RANGE or STATE otherwise (R5, R15, R16). -/
def Obligations.ReleasePathEffect : Prop :=
  ∀ (s : State) (tag path : Byte), Accepting s →
    (63 < path.toNat → exec (.releasePath tag path) s = .next (replied s tag 0x02 .range [])) ∧
    (path.toNat ≤ 63 → (s.path path.toNat).state = .unused → exec (.releasePath tag path) s = .next (replied s tag 0x02 .state [])) ∧
    ∀ c, path.toNat ≤ 63 → (s.path path.toNat).state ≠ .unused → (s.path path.toNat).owner = some c →
      exec (.releasePath tag path) s =
        .next (replied
          { s with
            pool := { s.pool with free := s.pool.free ++ (s.path path.toNat).chain }
            paths := s.paths.set path.toNat
              { state := .unused, owner := none, reference := none, chain := [], live := .a, step := 6, readHeld := false }
            seed := { s.seed with queue := s.seed.queue.filter fun q => q.path != path.toNat }
            channels := s.channels.set c
              { s.channel c with
                paths := (s.channel c).paths.filter fun q => q != path.toNat
                comparison := comparisonReset (s.channel c).comparison false }
            control := { s.control with streamer := abortedWhere (fun rb => rb.path == path.toNat) s.control.streamer } }
          tag 0x02 .done [])

/-- RESIZE PATH: the checks of R18 in their order, truncation to the free tail, extension from the free head with a CLEAR of the added
indices, and nothing for an equal length (R18 to R20), for a path whose owner and reference are named. A resize that is carried out raises
TABLE_PARITY first where the reference's record mismatches, and one that is refused or of equal length raises nothing (the model's choice,
log 16). -/
def Obligations.ResizePathEffect : Prop :=
  ∀ (s : State) (tag path : Byte) (length : Half), Accepting s →
    let r := s.path path.toNat
    let result := exec (.resizePath tag path length) s
    let reading := ∃ rb, s.control.streamer = .streaming rb ∧ rb.path = path.toNat
    (63 < path.toNat → result = .next (replied s tag 0x03 .range [])) ∧
    (path.toNat ≤ 63 → r.state = .unused → result = .next (replied s tag 0x03 .state [])) ∧
    (path.toNat ≤ 63 → r.state ≠ .unused → r.state = .seeding ∨ reading → result = .next (replied s tag 0x03 .busy [])) ∧
    ∀ c k, path.toNat ≤ 63 → r.state = .ready → ¬reading → r.owner = some c → r.reference = some k →
      let good := 1 ≤ length.toNat ∧ length.toNat ≤ 448 ∧ (s.reference k).bulk + length.toNat ≤ 512
      let read := if (s.reference k).parityBad = true then s.raise .tableParity (.reference k) (some tag) else s
      let channels := s.channels.set c { s.channel c with comparison := comparisonReset (s.channel c).comparison false }
      (¬good → result = .next (replied s tag 0x03 .range [])) ∧
      (good → s.pool.free.length < length.toNat - r.chain.length → result = .next (replied s tag 0x03 .noResource [])) ∧
      (good → length.toNat = r.chain.length → result = .next (replied s tag 0x03 .done [])) ∧
      (good → length.toNat < r.chain.length →
        result =
          .next (replied
            { read with
              pool := { s.pool with free := s.pool.free ++ r.chain.drop length.toNat }
              paths := s.paths.set path.toNat { r with chain := r.chain.take length.toNat }
              channels := channels }
            tag 0x03 .done [])) ∧
      (good → r.chain.length < length.toNat → length.toNat - r.chain.length ≤ s.pool.free.length →
        result =
          .next (replied
            { read with
              pool := { s.pool with free := s.pool.free.drop (length.toNat - r.chain.length) }
              paths := s.paths.set path.toNat
                { r with chain := r.chain ++ s.pool.free.take (length.toNat - r.chain.length), state := .seeding }
              seed :=
                { s.seed with
                  queue :=
                    s.seed.queue ++
                      [{ path := path.toNat, kind := .clear, first := r.chain.length, count := length.toNat - r.chain.length, done := 0 }] }
              channels := channels }
            tag 0x03 .done []))

/-- SET STEP: refused RANGE, STATE, RANGE in that order, otherwise the exponent is written and nothing else (R21). READ PATH RECORD, READ POOL
and READ CHAIN: their refusals in order, their payloads field by field, and no other change (R22 to R24). -/
def Obligations.SetStepAndPoolReads : Prop :=
  (∀ (s : State) (tag path step : Byte), Accepting s →
    exec (.setStep tag path step) s =
      .next
        (if 63 < path.toNat then replied s tag 0x04 .range []
        else if (s.path path.toNat).state = .unused then replied s tag 0x04 .state []
        else if step.toNat < 1 ∨ 10 < step.toNat then replied s tag 0x04 .range []
        else replied { s with paths := s.paths.set path.toNat { s.path path.toNat with step := step.toNat } } tag 0x04 .done [])) ∧
  ∀ (s : State) (tag : Byte), Accepting s →
    (∀ path : Byte, let r := s.path path.toNat
      exec (.readPathRecord tag path) s =
        .next
          (if 63 < path.toNat then replied s tag 0x05 .range []
          else
            replied s tag 0x05 .done
              ([path, r.state.byte, byteOrNone r.owner, byteOrNone r.reference] ++ bytes2 r.chain.length ++
                partitionBytes r.chain.head? ++ partitionBytes r.chain.getLast? ++
                [if r.live = .a then 0 else 1, byteOf r.step, if r.readHeld = true then 1 else 0]))) ∧
    exec (.readPool tag) s =
      .next (replied s tag 0x06 .done
        (bytes2 s.pool.free.length ++ partitionBytes s.pool.free.head? ++ partitionBytes s.pool.free.getLast?)) ∧
    ∀ (selector : Byte) (start : Half) (count : Byte),
      let chain := if selector = 0xFE then s.pool.free else (s.path selector.toNat).chain
      let entries := (chain.drop start.toNat).take count.toNat
      exec (.readChain tag selector start count) s =
        .next
          (if selector ≠ 0xFE ∧ 63 < selector.toNat ∨ count.toNat < 1 ∨ 96 < count.toNat then replied s tag 0x07 .range []
          else if selector ≠ 0xFE ∧ (s.path selector.toNat).state = .unused then replied s tag 0x07 .state []
          else if chain.length ≤ start.toNat then replied s tag 0x07 .range []
          else
            replied s tag 0x07 .done
              ([selector] ++ halfBytes start ++ [byteOf entries.length] ++ entries.flatMap fun n => bytes2 n))

/-! ### The commands of chapter 2 -/

/-- WRITE CHANNEL: RANGE, CONFLICT, or the slot and mode with fresh parity, and on a change the comparison state reset that keeps the pending
promote, the detector counters and the gain at their reset values, and on a slot change the clip run 0 (R27, R28). TABLE_PARITY is raised for
each record read with a mismatch: the other channels' before the conflict check, in ascending order (log 9), and the channel's own only when
it is written, so that a RANGE refusal reads none and a CONFLICT refusal not the channel's own; which records are read is the model's choice
(log 16). -/
def Obligations.WriteChannelEffect : Prop :=
  ∀ (s : State) (tag channel slot mode : Byte), Accepting s →
    let ch := s.channel channel.toNat
    let others := (List.range 24).foldl
      (fun v k => if k ≠ channel.toNat ∧ (s.channel k).parityBad = true then v.raise .tableParity (.channel k) (some tag) else v) s
    let named : Option Nat := if slot = 0xFF then none else some slot.toNat
    let result := exec (.writeChannel tag channel slot mode) s
    (23 < channel.toNat ∨ 31 < slot.toNat ∧ slot ≠ 0xFF ∨ 2 < mode.toNat → result = .next (replied s tag 0x10 .range [])) ∧
    ∀ m : ChannelMode, channel.toNat ≤ 23 → slot.toNat ≤ 31 ∨ slot = 0xFF → mode = m.byte →
      ((∃ k < 24, k ≠ channel.toNat ∧ named ≠ none ∧ (s.channel k).slot = named) → result = .next (replied others tag 0x10 .conflict [])) ∧
      (¬(∃ k < 24, k ≠ channel.toNat ∧ named ≠ none ∧ (s.channel k).slot = named) →
        let s0 := if ch.parityBad then others.raise .tableParity (.channel channel.toNat) (some tag) else others
        let changed := ¬(ch.slot = named ∧ ch.mode = m)
        result =
          .next (replied
            { s0 with
              channels := s.channels.set channel.toNat
                { ch with
                  slot := named
                  mode := m
                  parityBad := false
                  clipRun := if ch.slot = named then ch.clipRun else 0
                  comparison := if changed then comparisonReset ch.comparison ch.comparison.pendingPromote else ch.comparison
                  detector := if changed then { ch.detector with debounce := 0, hangover := 0, nearActive := false } else ch.detector
                  suppressor := if changed then { ch.suppressor with gain := 0 } else ch.suppressor } }
            tag 0x10 .done []))

/-- READ CHANNEL, READ REFERENCE and READ DECISION: RANGE, or the fields as they stand, with TABLE_PARITY raised first where the record is
read with a mismatch (R30, R39, R110). -/
def Obligations.TableReads : Prop :=
  ∀ (s : State) (tag : Byte), Accepting s →
    (∀ channel : Byte, let ch := s.channel channel.toNat
      exec (.readChannel tag channel) s =
        .next
          (if 23 < channel.toNat then replied s tag 0x11 .range []
          else
            replied (if ch.parityBad then s.raise .tableParity (.channel channel.toNat) (some tag) else s) tag 0x11 .done
              ([channel, byteOrNone ch.slot, ch.mode.byte, byteOf ch.clipRun, byteOf ch.paths.length] ++ ch.paths.map byteOf))) ∧
    (∀ reference : Byte, let r := s.reference reference.toNat
      exec (.readReference tag reference) s =
        .next
          (if 7 < reference.toNat then replied s tag 0x13 .range []
          else
            replied (if r.parityBad then s.raise .tableParity (.reference reference.toNat) (some tag) else s) tag 0x13 .done
              ([reference, byteOrNone r.slot, byteOf r.bulk, byteOf r.depth] ++ halfBytes (BitVec.ofInt 16 r.threshold) ++
                [byteOf r.hangover, byteOfBool r.active, byteOf r.hangoverCount]))) ∧
    ∀ bank entry : Byte,
      let e := (if bank.toNat = 0 then s.decision.bank0 else s.decision.bank1).getD entry.toNat DecisionEntry.blank
      exec (.readDecision tag bank entry) s =
        .next
          (if 1 < bank.toNat ∨ 15 < entry.toNat then replied s tag 0x52 .range []
          else
            replied (if e.parityBad then s.raise .tableParity (.bankEntry bank.toNat entry.toNat) (some tag) else s) tag 0x52 .done
              [bank, entry, if s.decision.active = bank.toNat then 1 else 0,
                BitVec.ofNat 8
                  ((if e.valid then 128 else 0) + (if e.adapt then 64 else 0) + (if e.fill then 32 else 0) + e.stepScale),
                e.mask.setWidth 8, e.want.setWidth 8, byteOf e.target])

/-- WRITE REFERENCE: the checks of R36 in their order; the five fields with fresh parity; on a slot change a silent history, IDLE, count 0,
the sweep at its start and the comparison state resets; on a bulk delay change those resets; on a depth change from 0 a cleared modulator
memory (R36, R37, R46). That the memory is cleared at the taking, in every operating state and with slot none too, is the model's reading of
R46 (log 28). TABLE_PARITY is raised for each record read with a mismatch: the other references' before the conflict check, in ascending
order (log 9), and the reference's own only when it is written; which records are read is the model's choice (log 16). -/
def Obligations.WriteReferenceEffect : Prop :=
  ∀ (s : State) (tag reference slot bulk depth : Byte) (threshold : Half) (hangover : Byte), Accepting s →
    let r := reference.toNat
    let old := s.reference r
    let others := (List.range 8).foldl
      (fun v k => if k ≠ r ∧ (s.reference k).parityBad = true then v.raise .tableParity (.reference k) (some tag) else v) s
    let s0 := if old.parityBad then others.raise .tableParity (.reference r) (some tag) else others
    let named : Option Nat := if slot = 0xFF then none else some slot.toNat
    let result := exec (.writeReference tag reference slot bulk depth threshold hangover) s
    let inRange :=
      r ≤ 7 ∧ (slot.toNat ≤ 15 ∨ slot = 0xFF) ∧ bulk.toNat ≤ 127 ∧ depth.toNat ≤ 3 ∧ -180 ≤ threshold.toInt ∧ threshold.toInt ≤ -40
    let taken := ∃ k < 8, k ≠ r ∧ named ≠ none ∧ (s.reference k).slot = named
    let orphans := named = none ∧ ∃ p ∈ s.paths, p.state ≠ .unused ∧ p.reference = some r
    let tooLong := ∃ p ∈ s.paths, p.state ≠ .unused ∧ p.reference = some r ∧ 512 < bulk.toNat + p.chain.length
    (¬inRange → result = .next (replied s tag 0x12 .range [])) ∧ (inRange → taken → result = .next (replied others tag 0x12 .conflict [])) ∧
    (inRange → ¬taken → orphans → result = .next (replied others tag 0x12 .conflict [])) ∧
    (inRange → ¬taken → ¬orphans → tooLong → result = .next (replied others tag 0x12 .range [])) ∧
    (inRange → ¬taken → ¬orphans → ¬tooLong →
      result =
        .next (replied
          { s0 with
            references := s.references.set r
              { slot := named, bulk := bulk.toNat, depth := depth.toNat, threshold := threshold.toInt, hangover := hangover.toNat,
                active := if old.slot = named then old.active else false
                hangoverCount := if old.slot = named then old.hangoverCount else 0
                parityBad := false }
            histories := if old.slot = named then s.histories else s.histories.set r silentHistory
            modulators :=
              if old.slot ≠ named then s0.modulators.set r { sweep := 0, lastIn := 0, lastOut := 0 }
              else if old.depth = 0 ∧ depth.toNat ≠ 0 then s0.modulators.set r { s0.modulator r with lastIn := 0, lastOut := 0 }
              else s0.modulators
            channels :=
              if old.slot = named ∧ old.bulk = bulk.toNat then s.channels
              else
                s.channels.map fun ch =>
                  if ∃ p ∈ ch.paths, (s.path p).reference = some r then
                    { ch with comparison := comparisonReset ch.comparison ch.comparison.pendingPromote }
                  else ch }
          tag 0x12 .done []))

/-! ### The commands of chapters 3, 4, 6 and 7 -/

/-- FREEZE CHANNEL: RANGE, nothing for the value the flag has, otherwise the flag and the comparison state reset, which clears the pending
promote when freezing and keeps it when not (R62). WRITE COEFF: the checks of R64 in their order, then the taps in the background set of the
partition at the chain index with fresh parity; every other set, and every other piece of state, as it was (R64, R65). -/
def Obligations.FreezeAndLoadEffect : Prop :=
  (∀ (s : State) (tag channel value : Byte), Accepting s →
    let ch := s.channel channel.toNat
    exec (.freezeChannel tag channel value) s =
      .next
        (if 23 < channel.toNat ∨ 1 < value.toNat then replied s tag 0x20 .range []
        else if (value = 1 ∧ ch.frozen = true) ∨ (value = 0 ∧ ch.frozen = false) then replied s tag 0x20 .done []
        else
          replied
            { s with
              channels := s.channels.set channel.toNat
                { ch with
                  frozen := decide (value = 1)
                  comparison := comparisonReset ch.comparison (if value = 1 then false else ch.comparison.pendingPromote) } }
            tag 0x20 .done [])) ∧
  ∀ (s : State) (tag path : Byte) (index : Half) (taps : Slot), Accepting s →
    let r := s.path path.toNat
    let result := exec (.writeCoeff tag path index taps) s
    let loadable := r.state = .ready ∧ ∃ c, r.owner = some c ∧ (s.channel c).frozen = true
    (63 < path.toNat → result = .next (replied s tag 0x21 .range [])) ∧
    (path.toNat ≤ 63 → ¬loadable → result = .next (replied s tag 0x21 .state [])) ∧
    (path.toNat ≤ 63 → loadable → r.readHeld = true → result = .next (replied s tag 0x21 .busy [])) ∧
    (path.toNat ≤ 63 → loadable → r.readHeld = false → r.chain.length ≤ index.toNat → result = .next (replied s tag 0x21 .range [])) ∧
    ∀ n, path.toNat ≤ 63 → loadable → r.readHeld = false → r.chain[index.toNat]? = some n → s.pool.cells.wf = true →
      ∃ cells, result = .next (replied { s with pool := { s.pool with cells := cells } } tag 0x21 .done []) ∧
        (cells.read n).get r.live.other = { taps := taps, upset := false } ∧
        (cells.read n).get r.live = (s.pool.cells.read n).get r.live ∧ ∀ k, k ≠ n → cells.read k = s.pool.cells.read k

/-- WRITE COMPARISON: RANGE outside the ranges of R66, otherwise the seven parameters, every window in progress restarted when W changes, and
every reseed count limited when the limit changes (R66, R77, R78). -/
def Obligations.WriteComparisonEffect : Prop :=
  ∀ (s : State) (tag w pm pc dm dc rl th : Byte), Accepting s →
    let inRange :=
      8 ≤ w.toNat ∧ w.toNat ≤ 64 ∧ pm.toNat ≤ 24 ∧ 1 ≤ pc.toNat ∧ pc.toNat ≤ 8 ∧ 6 ≤ dm.toNat ∧ dm.toNat ≤ 48 ∧ 1 ≤ dc.toNat ∧
        dc.toNat ≤ 8 ∧ 1 ≤ rl.toNat ∧ rl.toNat ≤ 15 ∧ th.toNat ≤ 48
    let result := exec (.writeComparison tag w pm pc dm dc rl th) s
    (¬inRange → result = .next (replied s tag 0x30 .range [])) ∧
    (inRange →
      result =
        .next (replied
          { s with
            comparator :=
              { window := w.toNat, promoteMargin := pm.toNat, promoteCount := pc.toNat, divergenceMargin := dm.toNat,
                divergenceCount := dc.toNat, reseedLimit := rl.toNat, threshold := th.toNat }
            channels := s.channels.map fun ch =>
              let m := ch.comparison
              { ch with
                comparison :=
                  { m with
                    count := if s.comparator.window = w.toNat then m.count else 0
                    captureSum := if s.comparator.window = w.toNat then m.captureSum else 0
                    liveSum := if s.comparator.window = w.toNat then m.liveSum else 0
                    backgroundSum := if s.comparator.window = w.toNat then m.backgroundSum else 0
                    farCount := if s.comparator.window = w.toNat then m.farCount else 0
                    disturbed := if s.comparator.window = w.toNat then m.disturbed else false
                    reseedCount := if s.comparator.reseedLimit = rl.toNat then m.reseedCount else min m.reseedCount rl.toNat } } }
          tag 0x30 .done []))

/-- READ CHANNEL STATS, READ SEED QUEUE, STATUS and READ FAULTS: their refusals, their payloads byte by byte, and no other change (R80, R94,
R124, R148, R169). The seven bytes of the first-fault record that STATUS and READ FAULTS carry, but for the tag byte of a record without a
tag and for bit 4 of the first byte, which are the model's choice (log 32) and not stated. The base of STATUS's family code is the model's
choice (log 13). -/
def Obligations.PlainReads : Prop :=
  ∀ (s : State) (tag : Byte), Accepting s →
    (∀ channel : Byte, let ch := s.channel channel.toNat
      exec (.readChannelStats tag channel) s =
        .next
          (if 23 < channel.toNat then replied s tag 0x32 .range []
          else
            replied s tag 0x32 .done
              [channel, ch.last.talk.byte, ch.last.flags.bits.setWidth 8, byteOf ch.comparison.count, byteOrNone ch.comparison.erle,
                levelByte ch.comparison.liveLevel, levelByte ch.comparison.backgroundLevel, byteOf ch.comparison.promoteStreak,
                byteOf ch.comparison.divergenceStreak, byteOf ch.comparison.reseedCount, byteOfBool ch.comparison.pendingPromote,
                BitVec.ofInt 8 ch.suppressor.gain, BitVec.ofInt 8 (ch.suppressor.floor / 4), byteOf ch.clipRun])) ∧
    (∀ start count : Byte,
      let entries := (s.seed.queue.drop start.toNat).take count.toNat
      exec (.readSeedQueue tag start count) s =
        .next
          (if 63 < start.toNat ∨ count.toNat < 1 ∨ 24 < count.toNat then replied s tag 0x40 .range []
          else
            replied s tag 0x40 .done
              ([byteOf s.seed.queue.length, start, byteOf entries.length] ++
                entries.flatMap fun q =>
                  [byteOf q.path, if q.kind = .copy then 1 else 0] ++ bytes2 q.first ++ bytes2 q.count ++ bytes2 q.done))) ∧
    exec (.status tag) s =
      .next (replied s tag 0x70 .done
        ([0x24, 0x01, s.unit.opState.byte, s.ports.lock.byte, s.unit.cause.byte] ++ halfBytes (s.unit.status.setWidth 16) ++
          s.unit.recordBytes ++ bytes2 s.pool.free.length ++ [byteOf s.seed.queue.length] ++
          (match s.control.streamer with
            | .streaming rb => [1, byteOf rb.path, rb.set.byte] ++ bytes2 rb.next ++ bytes2 rb.remaining
            | .idle => [0, 0xFF, 0, 0, 0, 0, 0]
            | .closing _ => [2, 0xFF, 0, 0, 0, 0, 0]) ++
          [byteOf s.decision.active])) ∧
    exec (.readFaults tag) s =
      .next (replied s tag 0x81 .done
        (halfBytes (s.unit.status.setWidth 16) ++ halfBytes (s.unit.masks.setWidth 16) ++ halfBytes (s.unit.severities.setWidth 16) ++
          s.unit.recordBytes)) ∧
    (s.unit.record = none → s.unit.recordBytes = [if s.unit.multiple then 0x40 else 0, 0, 0, 0, 0, 0, 0]) ∧
    ∀ r, s.unit.record = some r →
      ∃ head last : Byte, s.unit.recordBytes = [head] ++ r.subject.bytes ++ [last, r.seq] ∧ head.getLsbD 7 = true ∧
        head.getLsbD 6 = s.unit.multiple ∧ head.getLsbD 5 = r.tag.isSome ∧ (head &&& 0x0F).toNat = r.cls.code ∧
        ∀ x, r.tag = some x → last = x

/-- WRITE DETECTOR, WRITE SUPPRESSOR, SET NOTICE, SET SAFE ACTION and WRITE FAULT POLICY: RANGE for a value out of its range or of neither
kind, otherwise the values written and nothing else. That WRITE FAULT POLICY refuses a set bit 12 to 15 is the model's choice (log 18)
(R95, R113, R114, R123, R154, R164, R165). -/
def Obligations.ParameterWrites : Prop :=
  (∀ (s : State) (tag channel near echo debounce hangover : Byte), Accepting s →
    exec (.writeDetector tag channel near echo debounce hangover) s =
      .next
        (if 23 < channel.toNat ∨ near.toNat < 6 ∨ 60 < near.toNat ∨ 60 < echo.toNat ∨ debounce.toNat < 1 ∨ 15 < debounce.toNat then
          replied s tag 0x50 .range []
        else
          replied
            { s with
              channels := s.channels.set channel.toNat
                { s.channel channel.toNat with
                  detector :=
                    { (s.channel channel.toNat).detector with
                      nearThreshold := near.toNat
                      echoMargin := echo.toNat
                      enterDebounce := debounce.toNat
                      nearHangover := hangover.toNat } } }
            tag 0x50 .done [])) ∧
  (∀ (s : State) (tag channel attack release offset : Byte), Accepting s →
    exec (.writeSuppressor tag channel attack release offset) s =
      .next
        (if 23 < channel.toNat ∨ attack.toNat < 2 ∨ 24 < attack.toNat ∨ release.toNat < 1 ∨ 12 < release.toNat ∨ offset.toInt < -12 ∨
            12 < offset.toInt then
          replied s tag 0x60 .range []
        else
          replied
            { s with
              channels := s.channels.set channel.toNat
                { s.channel channel.toNat with
                  suppressor :=
                    { (s.channel channel.toNat).suppressor with
                      attack := attack.toNat
                      release := release.toNat
                      offset := offset.toInt } } }
            tag 0x60 .done [])) ∧
  (∀ (s : State) (tag : Byte), Accepting s →
    (∀ fault state path : Byte, exec (.setNotice tag fault state path) s =
      .next
        (if 1 < fault.toNat ∨ 1 < state.toNat ∨ 1 < path.toNat then replied s tag 0x73 .range []
        else
          replied
            { s with
              control :=
                { s.control with
                  enableFault := decide (fault = 1), enableState := decide (state = 1), enablePath := decide (path = 1) } }
            tag 0x73 .done [])) ∧
    (∀ action : Byte, exec (.setSafeAction tag action) s =
      .next
        (if action = 0 then replied { s with unit := { s.unit with safeAction := .pass } } tag 0x84 .done []
        else if action = 1 then replied { s with unit := { s.unit with safeAction := .mute } } tag 0x84 .done []
        else replied s tag 0x84 .range [])) ∧
    ∀ masks severities : Half, exec (.writeFaultPolicy tag masks severities) s =
      .next
        (if 4096 ≤ masks.toNat ∨ 4096 ≤ severities.toNat then replied s tag 0x83 .range []
        else
          replied { s with unit := { s.unit with masks := masks.setWidth 12, severities := severities.setWidth 12 } } tag 0x83 .done []))

/-- WRITE DECISION and SELECT DECISION BANK: the checks of R108 in their order, then the seven fields in the entry of the inactive bank with
fresh parity; the selector (R108, R109, R111). -/
def Obligations.DecisionWrites : Prop :=
  (∀ (s : State) (tag bank entry control mask want target : Byte), Accepting s →
    let result := exec (.writeDecision tag bank entry control mask want target) s
    let inRange :=
      bank.toNat ≤ 1 ∧ entry.toNat ≤ 15 ∧ control.getLsbD 2 = false ∧ control.getLsbD 3 = false ∧ control.getLsbD 4 = false ∧
        mask.getLsbD 7 = false ∧ want.getLsbD 7 = false ∧ target.toNat ≤ 45 ∧ target.toNat % 3 = 0 ∧
        ∀ i, want.getLsbD i = true → mask.getLsbD i = true
    let e : DecisionEntry :=
      { valid := control.getLsbD 7, mask := mask.setWidth 7, want := want.setWidth 7, adapt := control.getLsbD 6,
        stepScale := (control &&& 3).toNat, target := target.toNat, fill := control.getLsbD 5, parityBad := false }
    (¬inRange → result = .next (replied s tag 0x51 .range [])) ∧
    (inRange → bank.toNat = s.decision.active → result = .next (replied s tag 0x51 .state [])) ∧
    (inRange → bank.toNat ≠ s.decision.active →
      result =
        .next (replied
          { s with
            decision :=
              { s.decision with
                bank0 := if bank.toNat = 0 then s.decision.bank0.set entry.toNat e else s.decision.bank0
                bank1 := if bank.toNat = 0 then s.decision.bank1 else s.decision.bank1.set entry.toNat e } }
          tag 0x51 .done []))) ∧
  ∀ (s : State) (tag bank : Byte), Accepting s →
    exec (.selectDecisionBank tag bank) s =
      .next
        (if 1 < bank.toNat then replied s tag 0x53 .range []
        else replied { s with decision := { s.decision with active := bank.toNat } } tag 0x53 .done [])

/-! ### The commands of chapters 9 and 10 -/

/-- READ PATH: the checks of R149 in their order, then the streamer records the readback, and a BACKGROUND one makes the path read-held (R149,
R150). ABORT READ: refused STATE unless the streamer is STREAMING; otherwise the streamer holds the ABORTED packet, read-held becomes no
after a BACKGROUND readback, and the owner channel's pending promote is applied if it is set (R75, R152, R153). -/
def Obligations.ReadbackCommands : Prop :=
  (∀ (s : State) (tag path set : Byte) (first count : Half), Accepting s →
    let r := s.path path.toNat
    let result := exec (.readPath tag path set first count) s
    let inRange := path.toNat ≤ 63 ∧ set.toNat ≤ 1 ∧ first.toNat ≤ 447 ∧ 1 ≤ count.toNat ∧ count.toNat ≤ 448
    let readable := r.state ≠ .unused ∧ ¬(r.state = .seeding ∧ set = 1)
    (¬inRange → result = .next (replied s tag 0x71 .range [])) ∧
    (inRange → s.control.streamer ≠ .idle → result = .next (replied s tag 0x71 .busy [])) ∧
    (inRange → s.control.streamer = .idle → ¬readable → result = .next (replied s tag 0x71 .state [])) ∧
    (inRange → s.control.streamer = .idle → readable → r.chain.length < first.toNat + count.toNat →
      result = .next (replied s tag 0x71 .range [])) ∧
    (inRange → s.control.streamer = .idle → readable → first.toNat + count.toNat ≤ r.chain.length →
      result =
        .next (replied
          { s with
            control :=
              { s.control with
                streamer :=
                  .streaming
                    { tag := tag, path := path.toNat, set := if set = 0 then .live else .background, next := first.toNat,
                      remaining := count.toNat } }
            paths := if set = 0 then s.paths else s.paths.set path.toNat { r with readHeld := true } }
          tag 0x71 .done []))) ∧
  (∀ (s : State) (tag : Byte), Accepting s →
    ((∀ rb, s.control.streamer ≠ .streaming rb) → exec (.abortRead tag) s = .next (replied s tag 0x72 .state [])) ∧
    ∀ rb, s.control.streamer = .streaming rb →
      let ended : State :=
        { s with
          control := { s.control with streamer := .closing rb }
          paths := if rb.set = .background then s.paths.set rb.path { s.path rb.path with readHeld := false } else s.paths }
      ((∀ c, (s.path rb.path).owner = some c → (s.channel c).comparison.pendingPromote = false) →
        exec (.abortRead tag) s = .next (replied ended tag 0x72 .done [])) ∧
      ∀ c, (s.path rb.path).owner = some c → (s.channel c).comparison.pendingPromote = true →
        exec (.abortRead tag) s = .next (replied (ended.applyPromotion c) tag 0x72 .done []))

/-- SET MODE: the checks of R163 in their order; entry to RUN resets every channel's comparison state, keeping the pending promotes, and its
detector counters; entry to RUN from BYPASS clears the memory of every modulator, which resumes there (R46), and that it is cleared at the
entry is the model's reading (log 28); the STATE notice is produced when enabled, and a full queue discards it as RaiseRule says (R46, R161,
R163). -/
def Obligations.SetModeEffect : Prop :=
  ∀ (s : State) (tag mode : Byte), Accepting s →
    let result := exec (.setMode tag mode) s
    (mode ≠ 1 → mode ≠ 2 → result = .next (replied s tag 0x80 .range [])) ∧
    ∀ new : OpState, new = .run ∧ mode = 1 ∨ new = .bypass ∧ mode = 2 →
      (s.unit.opState = .offline → result = .next (replied s tag 0x80 .state [])) ∧
      (s.unit.opState = new → result = .next (replied s tag 0x80 .done [])) ∧
      (s.unit.opState ≠ .offline → s.unit.opState ≠ new → s.ports.lock ≠ .locked ∨ GraveStands s.unit →
        result = .next (replied s tag 0x80 .state [])) ∧
      (s.unit.opState ≠ .offline → s.unit.opState ≠ new → s.ports.lock = .locked → ¬GraveStands s.unit →
        let entered : State :=
          { s with
            unit := { s.unit with opState := new }
            modulators :=
              if new = .run ∧ s.unit.opState = .bypass then s.modulators.map fun m => { m with lastIn := 0, lastOut := 0 }
              else s.modulators
            channels :=
              if new = .run then
                s.channels.map fun ch =>
                  { ch with
                    comparison := comparisonReset ch.comparison ch.comparison.pendingPromote
                    detector := { ch.detector with debounce := 0, hangover := 0, nearActive := false } }
              else s.channels }
        result =
          .next (replied
            (if s.control.enableState then entered.postNotice (.state new .command s.unit.cause) (some tag) else entered) tag 0x80 .done []))

/-- CLEAR FAULTS: RANGE for a bit that names no class; otherwise the statuses of the set cleared, and the record with the multiple flag
exactly when the record's class is in the set; nothing else changes (R168). -/
def Obligations.ClearFaultsEffect : Prop :=
  ∀ (s : State) (tag : Byte) (classes : Half), Accepting s →
    (4096 ≤ classes.toNat → exec (.clearFaults tag classes) s = .next (replied s tag 0x82 .range [])) ∧
    (classes.toNat < 4096 →
      ∃ u : FaultUnit, exec (.clearFaults tag classes) s = .next (replied { s with unit := u } tag 0x82 .done []) ∧
        (∀ c : FaultClass, u.isSet c = (s.unit.isSet c && !classes.getLsbD c.code)) ∧
        ((∃ r, s.unit.record = some r ∧ classes.getLsbD r.cls.code = true) → u.record = none ∧ u.multiple = false) ∧
        (¬(∃ r, s.unit.record = some r ∧ classes.getLsbD r.cls.code = true) →
          u.record = s.unit.record ∧ u.multiple = s.unit.multiple) ∧
        u.opState = s.unit.opState ∧ u.masks = s.unit.masks ∧ u.severities = s.unit.severities ∧ u.cause = s.unit.cause ∧
        u.safeAction = s.unit.safeAction)

/-- With 16 replies waiting, no command is executed, whatever its code: the only effect is REPLY_OVERFLOW raised with the command's tag
(R144). -/
def Obligations.FullReplyQueueDropsCommands : Prop :=
  (∀ (i : Instr) (code tag : Byte) (payload : List Byte) (s : State), commandOf i = some (code, tag, payload) →
    s.ports.pinHeld = false → 16 ≤ s.control.replies.length → exec i s = .next (s.raise .replyOverflow (.tag tag) (some tag))) ∧
  ∀ (s : State) (code tag : Byte) (payload : List Byte), 16 ≤ s.control.replies.length →
    s.takeCommand code tag payload = s.raise .replyOverflow (.tag tag) (some tag)

/-! ### The laws that every step keeps -/

/-- The reset state has every law of Safety.lean. -/
def Obligations.LawsHoldAtReset : Prop :=
  TablesSized State.reset ∧ QueuesBounded State.reset ∧ FaultLogSound State.reset.unit ∧ PoolSound State.reset ∧ SlotsDistinct State.reset ∧
    PortsSound State.reset ∧ FieldsInRange State.reset ∧ PathsSound State.reset

/-- Every step keeps the sizes of the tables and the canonical form of the stored partitions, and the bounds of the three packet queues (R136,
R147, R155; spec/00 section 4). -/
def Obligations.TablesAndQueuesKept : Prop :=
  ∀ s t : State, step s = .next t → (TablesSized s → TablesSized t) ∧ (QueuesBounded s → QueuesBounded t)

/-- Every step keeps the law of the fault log, that an occupied record's class has its status set (R167), and the slots of the channels and of
the references distinct (R26). -/
def Obligations.FaultLogAndSlotsKept : Prop :=
  ∀ s t : State, step s = .next t → (FaultLogSound s.unit → FaultLogSound t.unit) ∧ (SlotsDistinct s → SlotsDistinct t)

/-- Every step keeps the pool law and the alignment limit: each of the 6144 partitions exactly once in the free list or in one chain (R2, R6,
R44). -/
def Obligations.PoolLawKept : Prop := ∀ s t : State, step s = .next t → PoolSound s → PoolSound t

/-- Every step keeps the agreement of the lock with its counts, of the origination flag with the room-silence count, and of fault arming with
OFFLINE (R134, R139, R140, R142, R162). -/
def Obligations.PortLawsKept : Prop := ∀ s t : State, step s = .next t → PortsSound s → PortsSound t

/-- Every step keeps every field in its range (R25, R35, R46, R66, R67, R95, R96, R103, R114). -/
def Obligations.RangesKept : Prop := ∀ s t : State, step s = .next t → FieldsInRange s → FieldsInRange t

/-- Every step keeps the laws of path lists, seed queue, readback and pending promotes: one request for each SEEDING path and none for
another, every path in use in its owner's list, read-held exactly under a BACKGROUND readback, a pending promote only under a live one
(R7, R9, R11, R74, R75, R82, R83). -/
def Obligations.PathLawsKept : Prop := ∀ s t : State, step s = .next t → PathsSound s → PathsSound t
end

