-- ==== Sys2Proof/Laws/State.lean ====
section
/-! SUPPORT. What each setter of a block leaves of each block, all true by rfl; the records by number after each put, and that two writes of one record
are the second. -/

namespace Sys2Proof.Machine

/-! ### setPorts -/

@[simp] theorem State.setPorts_ports (s : State) (x : Ports) : (s.setPorts x).ports = x := rfl
@[simp] theorem State.setPorts_modulators (s : State) (x : Ports) : (s.setPorts x).modulators = s.modulators := rfl
@[simp] theorem State.setPorts_references (s : State) (x : Ports) : (s.setPorts x).references = s.references := rfl
@[simp] theorem State.setPorts_histories (s : State) (x : Ports) : (s.setPorts x).histories = s.histories := rfl
@[simp] theorem State.setPorts_channels (s : State) (x : Ports) : (s.setPorts x).channels = s.channels := rfl
@[simp] theorem State.setPorts_paths (s : State) (x : Ports) : (s.setPorts x).paths = s.paths := rfl
@[simp] theorem State.setPorts_pool (s : State) (x : Ports) : (s.setPorts x).pool = s.pool := rfl
@[simp] theorem State.setPorts_comparator (s : State) (x : Ports) : (s.setPorts x).comparator = s.comparator := rfl
@[simp] theorem State.setPorts_seed (s : State) (x : Ports) : (s.setPorts x).seed = s.seed := rfl
@[simp] theorem State.setPorts_decision (s : State) (x : Ports) : (s.setPorts x).decision = s.decision := rfl
@[simp] theorem State.setPorts_control (s : State) (x : Ports) : (s.setPorts x).control = s.control := rfl
@[simp] theorem State.setPorts_unit (s : State) (x : Ports) : (s.setPorts x).unit = s.unit := rfl
@[simp] theorem State.setPorts_pending (s : State) (x : Ports) : (s.setPorts x).pending = s.pending := rfl

/-! ### setModulators -/

@[simp] theorem State.setModulators_ports (s : State) (x : List Modulator) : (s.setModulators x).ports = s.ports := rfl
@[simp] theorem State.setModulators_modulators (s : State) (x : List Modulator) : (s.setModulators x).modulators = x := rfl
@[simp] theorem State.setModulators_references (s : State) (x : List Modulator) : (s.setModulators x).references = s.references := rfl
@[simp] theorem State.setModulators_histories (s : State) (x : List Modulator) : (s.setModulators x).histories = s.histories := rfl
@[simp] theorem State.setModulators_channels (s : State) (x : List Modulator) : (s.setModulators x).channels = s.channels := rfl
@[simp] theorem State.setModulators_paths (s : State) (x : List Modulator) : (s.setModulators x).paths = s.paths := rfl
@[simp] theorem State.setModulators_pool (s : State) (x : List Modulator) : (s.setModulators x).pool = s.pool := rfl
@[simp] theorem State.setModulators_comparator (s : State) (x : List Modulator) : (s.setModulators x).comparator = s.comparator := rfl
@[simp] theorem State.setModulators_seed (s : State) (x : List Modulator) : (s.setModulators x).seed = s.seed := rfl
@[simp] theorem State.setModulators_decision (s : State) (x : List Modulator) : (s.setModulators x).decision = s.decision := rfl
@[simp] theorem State.setModulators_control (s : State) (x : List Modulator) : (s.setModulators x).control = s.control := rfl
@[simp] theorem State.setModulators_unit (s : State) (x : List Modulator) : (s.setModulators x).unit = s.unit := rfl
@[simp] theorem State.setModulators_pending (s : State) (x : List Modulator) : (s.setModulators x).pending = s.pending := rfl

/-! ### setReferences -/

@[simp] theorem State.setReferences_ports (s : State) (x : List Reference) : (s.setReferences x).ports = s.ports := rfl
@[simp] theorem State.setReferences_modulators (s : State) (x : List Reference) : (s.setReferences x).modulators = s.modulators := rfl
@[simp] theorem State.setReferences_references (s : State) (x : List Reference) : (s.setReferences x).references = x := rfl
@[simp] theorem State.setReferences_histories (s : State) (x : List Reference) : (s.setReferences x).histories = s.histories := rfl
@[simp] theorem State.setReferences_channels (s : State) (x : List Reference) : (s.setReferences x).channels = s.channels := rfl
@[simp] theorem State.setReferences_paths (s : State) (x : List Reference) : (s.setReferences x).paths = s.paths := rfl
@[simp] theorem State.setReferences_pool (s : State) (x : List Reference) : (s.setReferences x).pool = s.pool := rfl
@[simp] theorem State.setReferences_comparator (s : State) (x : List Reference) : (s.setReferences x).comparator = s.comparator := rfl
@[simp] theorem State.setReferences_seed (s : State) (x : List Reference) : (s.setReferences x).seed = s.seed := rfl
@[simp] theorem State.setReferences_decision (s : State) (x : List Reference) : (s.setReferences x).decision = s.decision := rfl
@[simp] theorem State.setReferences_control (s : State) (x : List Reference) : (s.setReferences x).control = s.control := rfl
@[simp] theorem State.setReferences_unit (s : State) (x : List Reference) : (s.setReferences x).unit = s.unit := rfl
@[simp] theorem State.setReferences_pending (s : State) (x : List Reference) : (s.setReferences x).pending = s.pending := rfl

/-! ### setHistories -/

@[simp] theorem State.setHistories_ports (s : State) (x : List (List Slot)) : (s.setHistories x).ports = s.ports := rfl
@[simp] theorem State.setHistories_modulators (s : State) (x : List (List Slot)) : (s.setHistories x).modulators = s.modulators := rfl
@[simp] theorem State.setHistories_references (s : State) (x : List (List Slot)) : (s.setHistories x).references = s.references := rfl
@[simp] theorem State.setHistories_histories (s : State) (x : List (List Slot)) : (s.setHistories x).histories = x := rfl
@[simp] theorem State.setHistories_channels (s : State) (x : List (List Slot)) : (s.setHistories x).channels = s.channels := rfl
@[simp] theorem State.setHistories_paths (s : State) (x : List (List Slot)) : (s.setHistories x).paths = s.paths := rfl
@[simp] theorem State.setHistories_pool (s : State) (x : List (List Slot)) : (s.setHistories x).pool = s.pool := rfl
@[simp] theorem State.setHistories_comparator (s : State) (x : List (List Slot)) : (s.setHistories x).comparator = s.comparator := rfl
@[simp] theorem State.setHistories_seed (s : State) (x : List (List Slot)) : (s.setHistories x).seed = s.seed := rfl
@[simp] theorem State.setHistories_decision (s : State) (x : List (List Slot)) : (s.setHistories x).decision = s.decision := rfl
@[simp] theorem State.setHistories_control (s : State) (x : List (List Slot)) : (s.setHistories x).control = s.control := rfl
@[simp] theorem State.setHistories_unit (s : State) (x : List (List Slot)) : (s.setHistories x).unit = s.unit := rfl
@[simp] theorem State.setHistories_pending (s : State) (x : List (List Slot)) : (s.setHistories x).pending = s.pending := rfl

/-! ### setChannels -/

@[simp] theorem State.setChannels_ports (s : State) (x : List Channel) : (s.setChannels x).ports = s.ports := rfl
@[simp] theorem State.setChannels_modulators (s : State) (x : List Channel) : (s.setChannels x).modulators = s.modulators := rfl
@[simp] theorem State.setChannels_references (s : State) (x : List Channel) : (s.setChannels x).references = s.references := rfl
@[simp] theorem State.setChannels_histories (s : State) (x : List Channel) : (s.setChannels x).histories = s.histories := rfl
@[simp] theorem State.setChannels_channels (s : State) (x : List Channel) : (s.setChannels x).channels = x := rfl
@[simp] theorem State.setChannels_paths (s : State) (x : List Channel) : (s.setChannels x).paths = s.paths := rfl
@[simp] theorem State.setChannels_pool (s : State) (x : List Channel) : (s.setChannels x).pool = s.pool := rfl
@[simp] theorem State.setChannels_comparator (s : State) (x : List Channel) : (s.setChannels x).comparator = s.comparator := rfl
@[simp] theorem State.setChannels_seed (s : State) (x : List Channel) : (s.setChannels x).seed = s.seed := rfl
@[simp] theorem State.setChannels_decision (s : State) (x : List Channel) : (s.setChannels x).decision = s.decision := rfl
@[simp] theorem State.setChannels_control (s : State) (x : List Channel) : (s.setChannels x).control = s.control := rfl
@[simp] theorem State.setChannels_unit (s : State) (x : List Channel) : (s.setChannels x).unit = s.unit := rfl
@[simp] theorem State.setChannels_pending (s : State) (x : List Channel) : (s.setChannels x).pending = s.pending := rfl

/-! ### setPaths -/

@[simp] theorem State.setPaths_ports (s : State) (x : List PathRecord) : (s.setPaths x).ports = s.ports := rfl
@[simp] theorem State.setPaths_modulators (s : State) (x : List PathRecord) : (s.setPaths x).modulators = s.modulators := rfl
@[simp] theorem State.setPaths_references (s : State) (x : List PathRecord) : (s.setPaths x).references = s.references := rfl
@[simp] theorem State.setPaths_histories (s : State) (x : List PathRecord) : (s.setPaths x).histories = s.histories := rfl
@[simp] theorem State.setPaths_channels (s : State) (x : List PathRecord) : (s.setPaths x).channels = s.channels := rfl
@[simp] theorem State.setPaths_paths (s : State) (x : List PathRecord) : (s.setPaths x).paths = x := rfl
@[simp] theorem State.setPaths_pool (s : State) (x : List PathRecord) : (s.setPaths x).pool = s.pool := rfl
@[simp] theorem State.setPaths_comparator (s : State) (x : List PathRecord) : (s.setPaths x).comparator = s.comparator := rfl
@[simp] theorem State.setPaths_seed (s : State) (x : List PathRecord) : (s.setPaths x).seed = s.seed := rfl
@[simp] theorem State.setPaths_decision (s : State) (x : List PathRecord) : (s.setPaths x).decision = s.decision := rfl
@[simp] theorem State.setPaths_control (s : State) (x : List PathRecord) : (s.setPaths x).control = s.control := rfl
@[simp] theorem State.setPaths_unit (s : State) (x : List PathRecord) : (s.setPaths x).unit = s.unit := rfl
@[simp] theorem State.setPaths_pending (s : State) (x : List PathRecord) : (s.setPaths x).pending = s.pending := rfl

/-! ### setPool -/

@[simp] theorem State.setPool_ports (s : State) (x : Pool) : (s.setPool x).ports = s.ports := rfl
@[simp] theorem State.setPool_modulators (s : State) (x : Pool) : (s.setPool x).modulators = s.modulators := rfl
@[simp] theorem State.setPool_references (s : State) (x : Pool) : (s.setPool x).references = s.references := rfl
@[simp] theorem State.setPool_histories (s : State) (x : Pool) : (s.setPool x).histories = s.histories := rfl
@[simp] theorem State.setPool_channels (s : State) (x : Pool) : (s.setPool x).channels = s.channels := rfl
@[simp] theorem State.setPool_paths (s : State) (x : Pool) : (s.setPool x).paths = s.paths := rfl
@[simp] theorem State.setPool_pool (s : State) (x : Pool) : (s.setPool x).pool = x := rfl
@[simp] theorem State.setPool_comparator (s : State) (x : Pool) : (s.setPool x).comparator = s.comparator := rfl
@[simp] theorem State.setPool_seed (s : State) (x : Pool) : (s.setPool x).seed = s.seed := rfl
@[simp] theorem State.setPool_decision (s : State) (x : Pool) : (s.setPool x).decision = s.decision := rfl
@[simp] theorem State.setPool_control (s : State) (x : Pool) : (s.setPool x).control = s.control := rfl
@[simp] theorem State.setPool_unit (s : State) (x : Pool) : (s.setPool x).unit = s.unit := rfl
@[simp] theorem State.setPool_pending (s : State) (x : Pool) : (s.setPool x).pending = s.pending := rfl

/-! ### setComparator -/

@[simp] theorem State.setComparator_ports (s : State) (x : ComparatorParams) : (s.setComparator x).ports = s.ports := rfl
@[simp] theorem State.setComparator_modulators (s : State) (x : ComparatorParams) : (s.setComparator x).modulators = s.modulators := rfl
@[simp] theorem State.setComparator_references (s : State) (x : ComparatorParams) : (s.setComparator x).references = s.references := rfl
@[simp] theorem State.setComparator_histories (s : State) (x : ComparatorParams) : (s.setComparator x).histories = s.histories := rfl
@[simp] theorem State.setComparator_channels (s : State) (x : ComparatorParams) : (s.setComparator x).channels = s.channels := rfl
@[simp] theorem State.setComparator_paths (s : State) (x : ComparatorParams) : (s.setComparator x).paths = s.paths := rfl
@[simp] theorem State.setComparator_pool (s : State) (x : ComparatorParams) : (s.setComparator x).pool = s.pool := rfl
@[simp] theorem State.setComparator_comparator (s : State) (x : ComparatorParams) : (s.setComparator x).comparator = x := rfl
@[simp] theorem State.setComparator_seed (s : State) (x : ComparatorParams) : (s.setComparator x).seed = s.seed := rfl
@[simp] theorem State.setComparator_decision (s : State) (x : ComparatorParams) : (s.setComparator x).decision = s.decision := rfl
@[simp] theorem State.setComparator_control (s : State) (x : ComparatorParams) : (s.setComparator x).control = s.control := rfl
@[simp] theorem State.setComparator_unit (s : State) (x : ComparatorParams) : (s.setComparator x).unit = s.unit := rfl
@[simp] theorem State.setComparator_pending (s : State) (x : ComparatorParams) : (s.setComparator x).pending = s.pending := rfl

/-! ### setSeed -/

@[simp] theorem State.setSeed_ports (s : State) (x : SeedEngine) : (s.setSeed x).ports = s.ports := rfl
@[simp] theorem State.setSeed_modulators (s : State) (x : SeedEngine) : (s.setSeed x).modulators = s.modulators := rfl
@[simp] theorem State.setSeed_references (s : State) (x : SeedEngine) : (s.setSeed x).references = s.references := rfl
@[simp] theorem State.setSeed_histories (s : State) (x : SeedEngine) : (s.setSeed x).histories = s.histories := rfl
@[simp] theorem State.setSeed_channels (s : State) (x : SeedEngine) : (s.setSeed x).channels = s.channels := rfl
@[simp] theorem State.setSeed_paths (s : State) (x : SeedEngine) : (s.setSeed x).paths = s.paths := rfl
@[simp] theorem State.setSeed_pool (s : State) (x : SeedEngine) : (s.setSeed x).pool = s.pool := rfl
@[simp] theorem State.setSeed_comparator (s : State) (x : SeedEngine) : (s.setSeed x).comparator = s.comparator := rfl
@[simp] theorem State.setSeed_seed (s : State) (x : SeedEngine) : (s.setSeed x).seed = x := rfl
@[simp] theorem State.setSeed_decision (s : State) (x : SeedEngine) : (s.setSeed x).decision = s.decision := rfl
@[simp] theorem State.setSeed_control (s : State) (x : SeedEngine) : (s.setSeed x).control = s.control := rfl
@[simp] theorem State.setSeed_unit (s : State) (x : SeedEngine) : (s.setSeed x).unit = s.unit := rfl
@[simp] theorem State.setSeed_pending (s : State) (x : SeedEngine) : (s.setSeed x).pending = s.pending := rfl

/-! ### setDecision -/

@[simp] theorem State.setDecision_ports (s : State) (x : Decision) : (s.setDecision x).ports = s.ports := rfl
@[simp] theorem State.setDecision_modulators (s : State) (x : Decision) : (s.setDecision x).modulators = s.modulators := rfl
@[simp] theorem State.setDecision_references (s : State) (x : Decision) : (s.setDecision x).references = s.references := rfl
@[simp] theorem State.setDecision_histories (s : State) (x : Decision) : (s.setDecision x).histories = s.histories := rfl
@[simp] theorem State.setDecision_channels (s : State) (x : Decision) : (s.setDecision x).channels = s.channels := rfl
@[simp] theorem State.setDecision_paths (s : State) (x : Decision) : (s.setDecision x).paths = s.paths := rfl
@[simp] theorem State.setDecision_pool (s : State) (x : Decision) : (s.setDecision x).pool = s.pool := rfl
@[simp] theorem State.setDecision_comparator (s : State) (x : Decision) : (s.setDecision x).comparator = s.comparator := rfl
@[simp] theorem State.setDecision_seed (s : State) (x : Decision) : (s.setDecision x).seed = s.seed := rfl
@[simp] theorem State.setDecision_decision (s : State) (x : Decision) : (s.setDecision x).decision = x := rfl
@[simp] theorem State.setDecision_control (s : State) (x : Decision) : (s.setDecision x).control = s.control := rfl
@[simp] theorem State.setDecision_unit (s : State) (x : Decision) : (s.setDecision x).unit = s.unit := rfl
@[simp] theorem State.setDecision_pending (s : State) (x : Decision) : (s.setDecision x).pending = s.pending := rfl

/-! ### setControl -/

@[simp] theorem State.setControl_ports (s : State) (x : Control) : (s.setControl x).ports = s.ports := rfl
@[simp] theorem State.setControl_modulators (s : State) (x : Control) : (s.setControl x).modulators = s.modulators := rfl
@[simp] theorem State.setControl_references (s : State) (x : Control) : (s.setControl x).references = s.references := rfl
@[simp] theorem State.setControl_histories (s : State) (x : Control) : (s.setControl x).histories = s.histories := rfl
@[simp] theorem State.setControl_channels (s : State) (x : Control) : (s.setControl x).channels = s.channels := rfl
@[simp] theorem State.setControl_paths (s : State) (x : Control) : (s.setControl x).paths = s.paths := rfl
@[simp] theorem State.setControl_pool (s : State) (x : Control) : (s.setControl x).pool = s.pool := rfl
@[simp] theorem State.setControl_comparator (s : State) (x : Control) : (s.setControl x).comparator = s.comparator := rfl
@[simp] theorem State.setControl_seed (s : State) (x : Control) : (s.setControl x).seed = s.seed := rfl
@[simp] theorem State.setControl_decision (s : State) (x : Control) : (s.setControl x).decision = s.decision := rfl
@[simp] theorem State.setControl_control (s : State) (x : Control) : (s.setControl x).control = x := rfl
@[simp] theorem State.setControl_unit (s : State) (x : Control) : (s.setControl x).unit = s.unit := rfl
@[simp] theorem State.setControl_pending (s : State) (x : Control) : (s.setControl x).pending = s.pending := rfl

/-! ### setUnit -/

@[simp] theorem State.setUnit_ports (s : State) (x : FaultUnit) : (s.setUnit x).ports = s.ports := rfl
@[simp] theorem State.setUnit_modulators (s : State) (x : FaultUnit) : (s.setUnit x).modulators = s.modulators := rfl
@[simp] theorem State.setUnit_references (s : State) (x : FaultUnit) : (s.setUnit x).references = s.references := rfl
@[simp] theorem State.setUnit_histories (s : State) (x : FaultUnit) : (s.setUnit x).histories = s.histories := rfl
@[simp] theorem State.setUnit_channels (s : State) (x : FaultUnit) : (s.setUnit x).channels = s.channels := rfl
@[simp] theorem State.setUnit_paths (s : State) (x : FaultUnit) : (s.setUnit x).paths = s.paths := rfl
@[simp] theorem State.setUnit_pool (s : State) (x : FaultUnit) : (s.setUnit x).pool = s.pool := rfl
@[simp] theorem State.setUnit_comparator (s : State) (x : FaultUnit) : (s.setUnit x).comparator = s.comparator := rfl
@[simp] theorem State.setUnit_seed (s : State) (x : FaultUnit) : (s.setUnit x).seed = s.seed := rfl
@[simp] theorem State.setUnit_decision (s : State) (x : FaultUnit) : (s.setUnit x).decision = s.decision := rfl
@[simp] theorem State.setUnit_control (s : State) (x : FaultUnit) : (s.setUnit x).control = s.control := rfl
@[simp] theorem State.setUnit_unit (s : State) (x : FaultUnit) : (s.setUnit x).unit = x := rfl
@[simp] theorem State.setUnit_pending (s : State) (x : FaultUnit) : (s.setUnit x).pending = s.pending := rfl

/-! ### setPending -/

@[simp] theorem State.setPending_ports (s : State) (x : List Instr) : (s.setPending x).ports = s.ports := rfl
@[simp] theorem State.setPending_modulators (s : State) (x : List Instr) : (s.setPending x).modulators = s.modulators := rfl
@[simp] theorem State.setPending_references (s : State) (x : List Instr) : (s.setPending x).references = s.references := rfl
@[simp] theorem State.setPending_histories (s : State) (x : List Instr) : (s.setPending x).histories = s.histories := rfl
@[simp] theorem State.setPending_channels (s : State) (x : List Instr) : (s.setPending x).channels = s.channels := rfl
@[simp] theorem State.setPending_paths (s : State) (x : List Instr) : (s.setPending x).paths = s.paths := rfl
@[simp] theorem State.setPending_pool (s : State) (x : List Instr) : (s.setPending x).pool = s.pool := rfl
@[simp] theorem State.setPending_comparator (s : State) (x : List Instr) : (s.setPending x).comparator = s.comparator := rfl
@[simp] theorem State.setPending_seed (s : State) (x : List Instr) : (s.setPending x).seed = s.seed := rfl
@[simp] theorem State.setPending_decision (s : State) (x : List Instr) : (s.setPending x).decision = s.decision := rfl
@[simp] theorem State.setPending_control (s : State) (x : List Instr) : (s.setPending x).control = s.control := rfl
@[simp] theorem State.setPending_unit (s : State) (x : List Instr) : (s.setPending x).unit = s.unit := rfl
@[simp] theorem State.setPending_pending (s : State) (x : List Instr) : (s.setPending x).pending = x := rfl

/-! ### The records by number -/

@[simp] theorem State.putChannel_ports (s : State) (n : Nat) (x : Channel) : (s.putChannel n x).ports = s.ports := rfl
@[simp] theorem State.putChannel_modulators (s : State) (n : Nat) (x : Channel) : (s.putChannel n x).modulators = s.modulators := rfl
@[simp] theorem State.putChannel_references (s : State) (n : Nat) (x : Channel) : (s.putChannel n x).references = s.references := rfl
@[simp] theorem State.putChannel_histories (s : State) (n : Nat) (x : Channel) : (s.putChannel n x).histories = s.histories := rfl
@[simp] theorem State.putChannel_channels (s : State) (n : Nat) (x : Channel) : (s.putChannel n x).channels = s.channels.set n x := rfl
@[simp] theorem State.putChannel_paths (s : State) (n : Nat) (x : Channel) : (s.putChannel n x).paths = s.paths := rfl
@[simp] theorem State.putChannel_pool (s : State) (n : Nat) (x : Channel) : (s.putChannel n x).pool = s.pool := rfl
@[simp] theorem State.putChannel_comparator (s : State) (n : Nat) (x : Channel) : (s.putChannel n x).comparator = s.comparator := rfl
@[simp] theorem State.putChannel_seed (s : State) (n : Nat) (x : Channel) : (s.putChannel n x).seed = s.seed := rfl
@[simp] theorem State.putChannel_decision (s : State) (n : Nat) (x : Channel) : (s.putChannel n x).decision = s.decision := rfl
@[simp] theorem State.putChannel_control (s : State) (n : Nat) (x : Channel) : (s.putChannel n x).control = s.control := rfl
@[simp] theorem State.putChannel_unit (s : State) (n : Nat) (x : Channel) : (s.putChannel n x).unit = s.unit := rfl
@[simp] theorem State.putChannel_pending (s : State) (n : Nat) (x : Channel) : (s.putChannel n x).pending = s.pending := rfl

/-- A record just put reads as what was put, when the table has it. -/
theorem State.channel_putChannel_self (s : State) (n : Nat) (x : Channel) (h : n < s.channels.length) : (s.putChannel n x).channel n = x := by
  simp [State.channel, State.putChannel, State.setChannels, h]

/-- A put leaves every other record. -/
theorem State.channel_putChannel_ne (s : State) (n k : Nat) (x : Channel) (h : n ≠ k) : (s.putChannel n x).channel k = s.channel k := by
  simp [State.channel, State.putChannel, State.setChannels, List.getElem?_set_ne h]

/-- The second of two puts of one record stands. -/
@[simp] theorem State.putChannel_putChannel (s : State) (n : Nat) (x y : Channel) : (s.putChannel n x).putChannel n y = s.putChannel n y := by
  simp [State.putChannel, State.setChannels]

@[simp] theorem State.path_putChannel (s : State) (n k : Nat) (x : Channel) : (s.putChannel n x).path k = s.path k := rfl
@[simp] theorem State.reference_putChannel (s : State) (n k : Nat) (x : Channel) : (s.putChannel n x).reference k = s.reference k := rfl
@[simp] theorem State.modulator_putChannel (s : State) (n k : Nat) (x : Channel) : (s.putChannel n x).modulator k = s.modulator k := rfl
@[simp] theorem State.history_putChannel (s : State) (n k : Nat) (x : Channel) : (s.putChannel n x).history k = s.history k := rfl

@[simp] theorem State.putPath_ports (s : State) (n : Nat) (x : PathRecord) : (s.putPath n x).ports = s.ports := rfl
@[simp] theorem State.putPath_modulators (s : State) (n : Nat) (x : PathRecord) : (s.putPath n x).modulators = s.modulators := rfl
@[simp] theorem State.putPath_references (s : State) (n : Nat) (x : PathRecord) : (s.putPath n x).references = s.references := rfl
@[simp] theorem State.putPath_histories (s : State) (n : Nat) (x : PathRecord) : (s.putPath n x).histories = s.histories := rfl
@[simp] theorem State.putPath_channels (s : State) (n : Nat) (x : PathRecord) : (s.putPath n x).channels = s.channels := rfl
@[simp] theorem State.putPath_paths (s : State) (n : Nat) (x : PathRecord) : (s.putPath n x).paths = s.paths.set n x := rfl
@[simp] theorem State.putPath_pool (s : State) (n : Nat) (x : PathRecord) : (s.putPath n x).pool = s.pool := rfl
@[simp] theorem State.putPath_comparator (s : State) (n : Nat) (x : PathRecord) : (s.putPath n x).comparator = s.comparator := rfl
@[simp] theorem State.putPath_seed (s : State) (n : Nat) (x : PathRecord) : (s.putPath n x).seed = s.seed := rfl
@[simp] theorem State.putPath_decision (s : State) (n : Nat) (x : PathRecord) : (s.putPath n x).decision = s.decision := rfl
@[simp] theorem State.putPath_control (s : State) (n : Nat) (x : PathRecord) : (s.putPath n x).control = s.control := rfl
@[simp] theorem State.putPath_unit (s : State) (n : Nat) (x : PathRecord) : (s.putPath n x).unit = s.unit := rfl
@[simp] theorem State.putPath_pending (s : State) (n : Nat) (x : PathRecord) : (s.putPath n x).pending = s.pending := rfl

/-- A record just put reads as what was put, when the table has it. -/
theorem State.path_putPath_self (s : State) (n : Nat) (x : PathRecord) (h : n < s.paths.length) : (s.putPath n x).path n = x := by
  simp [State.path, State.putPath, State.setPaths, h]

/-- A put leaves every other record. -/
theorem State.path_putPath_ne (s : State) (n k : Nat) (x : PathRecord) (h : n ≠ k) : (s.putPath n x).path k = s.path k := by
  simp [State.path, State.putPath, State.setPaths, List.getElem?_set_ne h]

/-- The second of two puts of one record stands. -/
@[simp] theorem State.putPath_putPath (s : State) (n : Nat) (x y : PathRecord) : (s.putPath n x).putPath n y = s.putPath n y := by
  simp [State.putPath, State.setPaths]

@[simp] theorem State.channel_putPath (s : State) (n k : Nat) (x : PathRecord) : (s.putPath n x).channel k = s.channel k := rfl
@[simp] theorem State.reference_putPath (s : State) (n k : Nat) (x : PathRecord) : (s.putPath n x).reference k = s.reference k := rfl
@[simp] theorem State.modulator_putPath (s : State) (n k : Nat) (x : PathRecord) : (s.putPath n x).modulator k = s.modulator k := rfl
@[simp] theorem State.history_putPath (s : State) (n k : Nat) (x : PathRecord) : (s.putPath n x).history k = s.history k := rfl

@[simp] theorem State.putReference_ports (s : State) (n : Nat) (x : Reference) : (s.putReference n x).ports = s.ports := rfl
@[simp] theorem State.putReference_modulators (s : State) (n : Nat) (x : Reference) : (s.putReference n x).modulators = s.modulators := rfl
@[simp] theorem State.putReference_references (s : State) (n : Nat) (x : Reference) : (s.putReference n x).references = s.references.set n x := rfl
@[simp] theorem State.putReference_histories (s : State) (n : Nat) (x : Reference) : (s.putReference n x).histories = s.histories := rfl
@[simp] theorem State.putReference_channels (s : State) (n : Nat) (x : Reference) : (s.putReference n x).channels = s.channels := rfl
@[simp] theorem State.putReference_paths (s : State) (n : Nat) (x : Reference) : (s.putReference n x).paths = s.paths := rfl
@[simp] theorem State.putReference_pool (s : State) (n : Nat) (x : Reference) : (s.putReference n x).pool = s.pool := rfl
@[simp] theorem State.putReference_comparator (s : State) (n : Nat) (x : Reference) : (s.putReference n x).comparator = s.comparator := rfl
@[simp] theorem State.putReference_seed (s : State) (n : Nat) (x : Reference) : (s.putReference n x).seed = s.seed := rfl
@[simp] theorem State.putReference_decision (s : State) (n : Nat) (x : Reference) : (s.putReference n x).decision = s.decision := rfl
@[simp] theorem State.putReference_control (s : State) (n : Nat) (x : Reference) : (s.putReference n x).control = s.control := rfl
@[simp] theorem State.putReference_unit (s : State) (n : Nat) (x : Reference) : (s.putReference n x).unit = s.unit := rfl
@[simp] theorem State.putReference_pending (s : State) (n : Nat) (x : Reference) : (s.putReference n x).pending = s.pending := rfl

/-- A record just put reads as what was put, when the table has it. -/
theorem State.reference_putReference_self (s : State) (n : Nat) (x : Reference) (h : n < s.references.length) : (s.putReference n x).reference n = x := by
  simp [State.reference, State.putReference, State.setReferences, h]

/-- A put leaves every other record. -/
theorem State.reference_putReference_ne (s : State) (n k : Nat) (x : Reference) (h : n ≠ k) : (s.putReference n x).reference k = s.reference k := by
  simp [State.reference, State.putReference, State.setReferences, List.getElem?_set_ne h]

/-- The second of two puts of one record stands. -/
@[simp] theorem State.putReference_putReference (s : State) (n : Nat) (x y : Reference) : (s.putReference n x).putReference n y = s.putReference n y := by
  simp [State.putReference, State.setReferences]

@[simp] theorem State.channel_putReference (s : State) (n k : Nat) (x : Reference) : (s.putReference n x).channel k = s.channel k := rfl
@[simp] theorem State.path_putReference (s : State) (n k : Nat) (x : Reference) : (s.putReference n x).path k = s.path k := rfl
@[simp] theorem State.modulator_putReference (s : State) (n k : Nat) (x : Reference) : (s.putReference n x).modulator k = s.modulator k := rfl
@[simp] theorem State.history_putReference (s : State) (n k : Nat) (x : Reference) : (s.putReference n x).history k = s.history k := rfl

@[simp] theorem State.putModulator_ports (s : State) (n : Nat) (x : Modulator) : (s.putModulator n x).ports = s.ports := rfl
@[simp] theorem State.putModulator_modulators (s : State) (n : Nat) (x : Modulator) : (s.putModulator n x).modulators = s.modulators.set n x := rfl
@[simp] theorem State.putModulator_references (s : State) (n : Nat) (x : Modulator) : (s.putModulator n x).references = s.references := rfl
@[simp] theorem State.putModulator_histories (s : State) (n : Nat) (x : Modulator) : (s.putModulator n x).histories = s.histories := rfl
@[simp] theorem State.putModulator_channels (s : State) (n : Nat) (x : Modulator) : (s.putModulator n x).channels = s.channels := rfl
@[simp] theorem State.putModulator_paths (s : State) (n : Nat) (x : Modulator) : (s.putModulator n x).paths = s.paths := rfl
@[simp] theorem State.putModulator_pool (s : State) (n : Nat) (x : Modulator) : (s.putModulator n x).pool = s.pool := rfl
@[simp] theorem State.putModulator_comparator (s : State) (n : Nat) (x : Modulator) : (s.putModulator n x).comparator = s.comparator := rfl
@[simp] theorem State.putModulator_seed (s : State) (n : Nat) (x : Modulator) : (s.putModulator n x).seed = s.seed := rfl
@[simp] theorem State.putModulator_decision (s : State) (n : Nat) (x : Modulator) : (s.putModulator n x).decision = s.decision := rfl
@[simp] theorem State.putModulator_control (s : State) (n : Nat) (x : Modulator) : (s.putModulator n x).control = s.control := rfl
@[simp] theorem State.putModulator_unit (s : State) (n : Nat) (x : Modulator) : (s.putModulator n x).unit = s.unit := rfl
@[simp] theorem State.putModulator_pending (s : State) (n : Nat) (x : Modulator) : (s.putModulator n x).pending = s.pending := rfl

/-- A record just put reads as what was put, when the table has it. -/
theorem State.modulator_putModulator_self (s : State) (n : Nat) (x : Modulator) (h : n < s.modulators.length) : (s.putModulator n x).modulator n = x := by
  simp [State.modulator, State.putModulator, State.setModulators, h]

/-- A put leaves every other record. -/
theorem State.modulator_putModulator_ne (s : State) (n k : Nat) (x : Modulator) (h : n ≠ k) : (s.putModulator n x).modulator k = s.modulator k := by
  simp [State.modulator, State.putModulator, State.setModulators, List.getElem?_set_ne h]

/-- The second of two puts of one record stands. -/
@[simp] theorem State.putModulator_putModulator (s : State) (n : Nat) (x y : Modulator) : (s.putModulator n x).putModulator n y = s.putModulator n y := by
  simp [State.putModulator, State.setModulators]

@[simp] theorem State.channel_putModulator (s : State) (n k : Nat) (x : Modulator) : (s.putModulator n x).channel k = s.channel k := rfl
@[simp] theorem State.path_putModulator (s : State) (n k : Nat) (x : Modulator) : (s.putModulator n x).path k = s.path k := rfl
@[simp] theorem State.reference_putModulator (s : State) (n k : Nat) (x : Modulator) : (s.putModulator n x).reference k = s.reference k := rfl
@[simp] theorem State.history_putModulator (s : State) (n k : Nat) (x : Modulator) : (s.putModulator n x).history k = s.history k := rfl

@[simp] theorem State.putHistory_ports (s : State) (n : Nat) (x : List Slot) : (s.putHistory n x).ports = s.ports := rfl
@[simp] theorem State.putHistory_modulators (s : State) (n : Nat) (x : List Slot) : (s.putHistory n x).modulators = s.modulators := rfl
@[simp] theorem State.putHistory_references (s : State) (n : Nat) (x : List Slot) : (s.putHistory n x).references = s.references := rfl
@[simp] theorem State.putHistory_histories (s : State) (n : Nat) (x : List Slot) : (s.putHistory n x).histories = s.histories.set n x := rfl
@[simp] theorem State.putHistory_channels (s : State) (n : Nat) (x : List Slot) : (s.putHistory n x).channels = s.channels := rfl
@[simp] theorem State.putHistory_paths (s : State) (n : Nat) (x : List Slot) : (s.putHistory n x).paths = s.paths := rfl
@[simp] theorem State.putHistory_pool (s : State) (n : Nat) (x : List Slot) : (s.putHistory n x).pool = s.pool := rfl
@[simp] theorem State.putHistory_comparator (s : State) (n : Nat) (x : List Slot) : (s.putHistory n x).comparator = s.comparator := rfl
@[simp] theorem State.putHistory_seed (s : State) (n : Nat) (x : List Slot) : (s.putHistory n x).seed = s.seed := rfl
@[simp] theorem State.putHistory_decision (s : State) (n : Nat) (x : List Slot) : (s.putHistory n x).decision = s.decision := rfl
@[simp] theorem State.putHistory_control (s : State) (n : Nat) (x : List Slot) : (s.putHistory n x).control = s.control := rfl
@[simp] theorem State.putHistory_unit (s : State) (n : Nat) (x : List Slot) : (s.putHistory n x).unit = s.unit := rfl
@[simp] theorem State.putHistory_pending (s : State) (n : Nat) (x : List Slot) : (s.putHistory n x).pending = s.pending := rfl

/-- A record just put reads as what was put, when the table has it. -/
theorem State.history_putHistory_self (s : State) (n : Nat) (x : List Slot) (h : n < s.histories.length) : (s.putHistory n x).history n = x := by
  simp [State.history, State.putHistory, State.setHistories, h]

/-- A put leaves every other record. -/
theorem State.history_putHistory_ne (s : State) (n k : Nat) (x : List Slot) (h : n ≠ k) : (s.putHistory n x).history k = s.history k := by
  simp [State.history, State.putHistory, State.setHistories, List.getElem?_set_ne h]

/-- The second of two puts of one record stands. -/
@[simp] theorem State.putHistory_putHistory (s : State) (n : Nat) (x y : List Slot) : (s.putHistory n x).putHistory n y = s.putHistory n y := by
  simp [State.putHistory, State.setHistories]

@[simp] theorem State.channel_putHistory (s : State) (n k : Nat) (x : List Slot) : (s.putHistory n x).channel k = s.channel k := rfl
@[simp] theorem State.path_putHistory (s : State) (n k : Nat) (x : List Slot) : (s.putHistory n x).path k = s.path k := rfl
@[simp] theorem State.reference_putHistory (s : State) (n k : Nat) (x : List Slot) : (s.putHistory n x).reference k = s.reference k := rfl
@[simp] theorem State.modulator_putHistory (s : State) (n k : Nat) (x : List Slot) : (s.putHistory n x).modulator k = s.modulator k := rfl

/-- A record changed by a function of itself: the function need only hold good where the table has the record. -/
theorem List.set_getD_congr {α : Type} (l : List α) (n : Nat) (x y : α) (h : n < l.length → x = y) : l.set n x = l.set n y := by
  by_cases hn : n < l.length
  · rw [h hn]
  · rw [List.set_eq_of_length_le (by omega), List.set_eq_of_length_le (by omega)]

end Sys2Proof.Machine
end

