-- ==== Sys2Proof/Laws/Ops.lean ====
section
/-! SUPPORT. What each shared operation of Machine/Ops.lean can do, said once: what a raise, a notice and a change of operating state leave alone; the partition store read after a write and its canonical form; the taking of a command; the copies of a promotion or a reseed. -/

namespace Sys2Proof.Machine

/-! ### Raising, producing notices, changing the operating state -/

/-- Nothing but reports: what a raise, a produced notice or a change of operating state can do to the state. Everything but the fault unit's
log and operating state, the notice queue and the modulators' memories is as it was, and the notice queue only grows, within its bound. -/
structure Reports (s t : State) : Prop where
  ports : t.ports = s.ports
  references : t.references = s.references
  histories : t.histories = s.histories
  channels : t.channels = s.channels
  paths : t.paths = s.paths
  pool : t.pool = s.pool
  comparator : t.comparator = s.comparator
  seed : t.seed = s.seed
  decision : t.decision = s.decision
  pending : t.pending = s.pending
  replies : t.control.replies = s.control.replies
  forward : t.control.forward = s.control.forward
  streamer : t.control.streamer = s.control.streamer
  winner : t.control.winner = s.control.winner
  enableFault : t.control.enableFault = s.control.enableFault
  enableState : t.control.enableState = s.control.enableState
  enablePath : t.control.enablePath = s.control.enablePath
  masks : t.unit.masks = s.unit.masks
  severities : t.unit.severities = s.unit.severities
  safeAction : t.unit.safeAction = s.unit.safeAction
  cause : t.unit.cause = s.unit.cause
  sweeps : t.modulators.map Modulator.sweep = s.modulators.map Modulator.sweep
  notices : s.control.notices.length ≤ t.control.notices.length
  bounded : s.control.notices.length ≤ 8 → t.control.notices.length ≤ 8
  statuses : ∀ c, s.unit.isSet c = true → t.unit.isSet c = true

theorem Reports.refl (s : State) : Reports s s := by constructor <;> simp

theorem Reports.trans {s t u : State} (h : Reports s t) (k : Reports t u) : Reports s u where
  ports := k.ports.trans h.ports
  references := k.references.trans h.references
  histories := k.histories.trans h.histories
  channels := k.channels.trans h.channels
  paths := k.paths.trans h.paths
  pool := k.pool.trans h.pool
  comparator := k.comparator.trans h.comparator
  seed := k.seed.trans h.seed
  decision := k.decision.trans h.decision
  pending := k.pending.trans h.pending
  replies := k.replies.trans h.replies
  forward := k.forward.trans h.forward
  streamer := k.streamer.trans h.streamer
  winner := k.winner.trans h.winner
  enableFault := k.enableFault.trans h.enableFault
  enableState := k.enableState.trans h.enableState
  enablePath := k.enablePath.trans h.enablePath
  masks := k.masks.trans h.masks
  severities := k.severities.trans h.severities
  safeAction := k.safeAction.trans h.safeAction
  cause := k.cause.trans h.cause
  sweeps := k.sweeps.trans h.sweeps
  notices := h.notices.trans k.notices
  bounded := fun b => k.bounded (h.bounded b)
  statuses := fun c b => k.statuses c (h.statuses c b)

theorem Reports.modulators_length {s t : State} (h : Reports s t) : t.modulators.length = s.modulators.length := by
  simpa using congrArg List.length h.sweeps

/-- The bit of one class is read of another class's code only as no. -/
theorem FaultClass.bit_getLsbD (c d : FaultClass) : c.bit.getLsbD d.code = decide (c = d) := by cases c <;> cases d <;> decide

theorem FaultUnit.isSet_or_bit (u : FaultUnit) (c d : FaultClass) :
    ({ u with status := u.status ||| c.bit } : FaultUnit).isSet d = (u.isSet d || decide (c = d)) := by
  simp [FaultUnit.isSet, FaultClass.bit_getLsbD]

theorem State.setStatus_reports (s : State) (c : FaultClass) : Reports s (s.setStatus c) := by
  constructor <;> simp [State.setStatus, FaultUnit.isSet_or_bit]
  intro d h
  exact Or.inl h

theorem State.noteRaise_reports (s : State) (c : FaultClass) (subject : Subject) (tag : Option Byte) :
    Reports s (s.noteRaise c subject tag) := by
  unfold State.noteRaise
  split <;> constructor <;> simp [FaultUnit.isSet]

theorem State.changeOpState_reports (s : State) (new : OpState) : Reports s (s.changeOpState new) := by
  unfold State.changeOpState
  split <;> constructor <;> simp [FaultUnit.isSet, Modulator.cleared, Function.comp_def]

theorem State.raiseOverflow_reports (s : State) (kind : NoticeKind) (tag : Option Byte) : Reports s (s.raiseOverflow kind tag) := by
  unfold State.raiseOverflow
  simp only
  split
  · exact s.setStatus_reports _
  · split
    · exact s.noteRaise_reports _ _ _
    · have h := (s.setStatus_reports FaultClass.noticeOverflow).trans
        (State.noteRaise_reports (s.setStatus FaultClass.noticeOverflow) FaultClass.noticeOverflow (.noticeKind kind) tag)
      split
      · split
        · exact (h.trans (State.changeOpState_reports _ _)).trans (State.noteRaise_reports _ _ _ _)
        · exact h.trans (State.changeOpState_reports _ _)
      · exact h

theorem State.postNotice_reports (s : State) (n : Notice) (tag : Option Byte) : Reports s (s.postNotice n tag) := by
  unfold State.postNotice
  split
  · next h => constructor <;> simp [Config.noticeCapacity] at * ; omega
  · exact s.raiseOverflow_reports _ _

theorem State.enterState_reports (s : State) (new : OpState) (reason : Reason) (tag : Option Byte) :
    Reports s (s.enterState new reason tag) := by
  unfold State.enterState
  simp only
  split
  · exact (s.changeOpState_reports new).trans (State.postNotice_reports _ _ _)
  · exact s.changeOpState_reports new

/-- A raise does nothing but report. -/
theorem State.raise_reports (s : State) (c : FaultClass) (subject : Subject) (tag : Option Byte) : Reports s (s.raise c subject tag) := by
  unfold State.raise
  simp only
  split
  · exact s.setStatus_reports c
  · split
    · exact s.noteRaise_reports _ _ _
    · have h := (s.setStatus_reports c).trans (State.noteRaise_reports (s.setStatus c) c subject tag)
      split <;> split
      · exact (h.trans (State.postNotice_reports _ _ _)).trans (State.enterState_reports _ _ _ _)
      · exact h.trans (State.postNotice_reports _ _ _)
      · exact h.trans (State.enterState_reports _ _ _ _)
      · exact h

@[simp] theorem State.raise_ports (s : State) (c : FaultClass) (x : Subject) (t : Option Byte) : (s.raise c x t).ports = s.ports :=
  (s.raise_reports c x t).ports
@[simp] theorem State.raise_references (s : State) (c : FaultClass) (x : Subject) (t : Option Byte) : (s.raise c x t).references = s.references :=
  (s.raise_reports c x t).references
@[simp] theorem State.raise_histories (s : State) (c : FaultClass) (x : Subject) (t : Option Byte) : (s.raise c x t).histories = s.histories :=
  (s.raise_reports c x t).histories
@[simp] theorem State.raise_channels (s : State) (c : FaultClass) (x : Subject) (t : Option Byte) : (s.raise c x t).channels = s.channels :=
  (s.raise_reports c x t).channels
@[simp] theorem State.raise_paths (s : State) (c : FaultClass) (x : Subject) (t : Option Byte) : (s.raise c x t).paths = s.paths :=
  (s.raise_reports c x t).paths
@[simp] theorem State.raise_pool (s : State) (c : FaultClass) (x : Subject) (t : Option Byte) : (s.raise c x t).pool = s.pool :=
  (s.raise_reports c x t).pool
@[simp] theorem State.raise_comparator (s : State) (c : FaultClass) (x : Subject) (t : Option Byte) : (s.raise c x t).comparator = s.comparator :=
  (s.raise_reports c x t).comparator
@[simp] theorem State.raise_seed (s : State) (c : FaultClass) (x : Subject) (t : Option Byte) : (s.raise c x t).seed = s.seed :=
  (s.raise_reports c x t).seed
@[simp] theorem State.raise_decision (s : State) (c : FaultClass) (x : Subject) (t : Option Byte) : (s.raise c x t).decision = s.decision :=
  (s.raise_reports c x t).decision
@[simp] theorem State.raise_pending (s : State) (c : FaultClass) (x : Subject) (t : Option Byte) : (s.raise c x t).pending = s.pending :=
  (s.raise_reports c x t).pending
@[simp] theorem State.raise_replies (s : State) (c : FaultClass) (x : Subject) (t : Option Byte) :
    (s.raise c x t).control.replies = s.control.replies := (s.raise_reports c x t).replies
@[simp] theorem State.raise_forward (s : State) (c : FaultClass) (x : Subject) (t : Option Byte) :
    (s.raise c x t).control.forward = s.control.forward := (s.raise_reports c x t).forward
@[simp] theorem State.raise_streamer (s : State) (c : FaultClass) (x : Subject) (t : Option Byte) :
    (s.raise c x t).control.streamer = s.control.streamer := (s.raise_reports c x t).streamer
@[simp] theorem State.raise_winner (s : State) (c : FaultClass) (x : Subject) (t : Option Byte) :
    (s.raise c x t).control.winner = s.control.winner := (s.raise_reports c x t).winner
@[simp] theorem State.raise_enableFault (s : State) (c : FaultClass) (x : Subject) (t : Option Byte) :
    (s.raise c x t).control.enableFault = s.control.enableFault := (s.raise_reports c x t).enableFault
@[simp] theorem State.raise_enableState (s : State) (c : FaultClass) (x : Subject) (t : Option Byte) :
    (s.raise c x t).control.enableState = s.control.enableState := (s.raise_reports c x t).enableState
@[simp] theorem State.raise_enablePath (s : State) (c : FaultClass) (x : Subject) (t : Option Byte) :
    (s.raise c x t).control.enablePath = s.control.enablePath := (s.raise_reports c x t).enablePath

/-- After a raise the class's status is set (R166). -/
theorem State.raise_isSet (s : State) (c : FaultClass) (subject : Subject) (tag : Option Byte) :
    (s.raise c subject tag).unit.isSet c = true := by
  have h0 : (s.setStatus c).unit.isSet c = true := by simp [State.setStatus, FaultUnit.isSet_or_bit]
  have h1 := (State.noteRaise_reports (s.setStatus c) c subject tag).statuses c h0
  unfold State.raise
  simp only
  split
  · exact h0
  · split
    · next h => exact (s.noteRaise_reports c subject tag).statuses c h
    · split <;> split
      · exact (State.enterState_reports _ _ _ _).statuses c ((State.postNotice_reports _ _ _).statuses c h1)
      · exact (State.postNotice_reports _ _ _).statuses c h1
      · exact (State.enterState_reports _ _ _ _).statuses c h1
      · exact h1

theorem State.raiseAll_reports (s : State) (faults : List (FaultClass × Subject)) : Reports s (s.raiseAll faults) := by
  unfold State.raiseAll
  induction faults generalizing s with
  | nil => exact Reports.refl s
  | cons f rest ih => exact (s.raise_reports f.1 f.2 none).trans (ih _)

theorem State.checkChannel_reports (s : State) (c : Nat) (tag : Byte) : Reports s (s.checkChannel c tag) := by
  unfold State.checkChannel
  split
  · exact s.raise_reports _ _ _
  · exact Reports.refl s

theorem State.checkReference_reports (s : State) (r : Nat) (tag : Byte) : Reports s (s.checkReference r tag) := by
  unfold State.checkReference
  split
  · exact s.raise_reports _ _ _
  · exact Reports.refl s

/-- A record read without a mismatch raises nothing. -/
@[simp] theorem State.checkChannel_good (s : State) (c : Nat) (tag : Byte) (h : (s.channel c).parityBad = false) :
    s.checkChannel c tag = s := by simp [State.checkChannel, h]

@[simp] theorem State.checkReference_good (s : State) (r : Nat) (tag : Byte) (h : (s.reference r).parityBad = false) :
    s.checkReference r tag = s := by simp [State.checkReference, h]

theorem State.checkOthers_reports (s : State) (f : State → Nat → State) (h : ∀ s k, Reports s (f s k)) (l : List Nat) :
    Reports s (l.foldl f s) := by
  induction l generalizing s with
  | nil => exact Reports.refl s
  | cons k rest ih => exact (h s k).trans (ih _)

theorem State.checkOtherChannels_reports (s : State) (c : Nat) (tag : Byte) : Reports s (s.checkOtherChannels c tag) := by
  apply State.checkOthers_reports
  intro s k
  split
  · exact Reports.refl s
  · exact s.checkChannel_reports k tag

theorem State.checkOtherReferences_reports (s : State) (r : Nat) (tag : Byte) : Reports s (s.checkOtherReferences r tag) := by
  apply State.checkOthers_reports
  intro s k
  split
  · exact Reports.refl s
  · exact s.checkReference_reports k tag

/-- Records all read without a mismatch raise nothing. -/
theorem State.foldl_fixed {α β : Type} (s : α) (f : α → β → α) (l : List β) (h : ∀ k ∈ l, f s k = s) : l.foldl f s = s := by
  induction l with
  | nil => rfl
  | cons k rest ih => rw [List.foldl_cons, h k (by simp)]; exact ih fun j hj => h j (by simp [hj])

theorem State.checkOtherChannels_good (s : State) (c : Nat) (tag : Byte) (h : ∀ k < 24, k ≠ c → (s.channel k).parityBad = false) :
    s.checkOtherChannels c tag = s := by
  apply State.foldl_fixed
  intro k hk
  split
  · rfl
  · next hne => exact s.checkChannel_good k tag (h k (by simpa [Config.numChannels] using hk) hne)

theorem State.checkOtherReferences_good (s : State) (r : Nat) (tag : Byte) (h : ∀ k < 8, k ≠ r → (s.reference k).parityBad = false) :
    s.checkOtherReferences r tag = s := by
  apply State.foldl_fixed
  intro k hk
  split
  · rfl
  · next hne => exact s.checkReference_good k tag (h k (by simpa [Config.numReferences] using hk) hne)

/-! ### The partition store -/

theorem PartitionStore.wfFrom_mono {low high : Nat} (h : low ≤ high) (m : PartitionStore) (w : PartitionStore.wfFrom high m = true) :
    PartitionStore.wfFrom low m = true := by
  cases m with
  | nil => rfl
  | cons e rest =>
    obtain ⟨n, p⟩ := e
    simp only [PartitionStore.wfFrom, Bool.and_eq_true, decide_eq_true_eq] at w ⊢
    exact ⟨⟨by omega, w.1.2⟩, w.2⟩

/-- A number below every listed one reads as zero. -/
theorem PartitionStore.read_below (m : PartitionStore) (low k : Nat) (w : PartitionStore.wfFrom low m = true) (h : k < low) :
    m.read k = Partition.zero := by
  induction m generalizing low with
  | nil => rfl
  | cons e rest ih =>
    obtain ⟨n, p⟩ := e
    simp only [PartitionStore.wfFrom, Bool.and_eq_true, decide_eq_true_eq] at w
    rw [PartitionStore.read, if_neg (by omega)]
    exact ih (n + 1) w.2 (by omega)

/-- Reading back a write: the partition written, and every other as before. -/
theorem PartitionStore.read_write (m : PartitionStore) (low k j : Nat) (x : Partition) (w : PartitionStore.wfFrom low m = true) :
    (m.write k x).read j = if j = k then x else m.read j := by
  induction m generalizing low with
  | nil =>
    by_cases hx : x = Partition.zero
    · simp [PartitionStore.write, PartitionStore.read, hx]
    · by_cases hj : j = k
      · simp [PartitionStore.write, PartitionStore.read, hx, hj]
      · simp [PartitionStore.write, PartitionStore.read, hx, hj, show ¬k = j from fun e => hj e.symm]
  | cons e rest ih =>
    obtain ⟨n, p⟩ := e
    simp only [PartitionStore.wfFrom, Bool.and_eq_true, decide_eq_true_eq] at w
    simp only [PartitionStore.write]
    by_cases hlt : k < n
    · rw [if_pos hlt]
      by_cases hx : x = Partition.zero
      · rw [if_pos hx]
        by_cases hj : j = k
        · subst hj
          rw [if_pos rfl, PartitionStore.read, if_neg (by omega), hx]
          exact PartitionStore.read_below rest (n + 1) j w.2 (by omega)
        · rw [if_neg hj]
      · rw [if_neg hx]
        by_cases hj : j = k
        · subst hj; simp [PartitionStore.read]
        · rw [if_neg hj, PartitionStore.read, if_neg (fun e => hj e.symm)]
    · rw [if_neg hlt]
      by_cases heq : k = n
      · subst heq
        rw [if_pos rfl]
        by_cases hj : j = k
        · subst hj
          by_cases hx : x = Partition.zero
          · simpa [hx] using PartitionStore.read_below rest (j + 1) j w.2 (by omega)
          · simp [hx, PartitionStore.read]
        · by_cases hx : x = Partition.zero
          · rw [if_pos hx, if_neg hj, PartitionStore.read, if_neg (fun e => hj e.symm)]
          · rw [if_neg hx, if_neg hj, PartitionStore.read, PartitionStore.read, if_neg (fun e => hj e.symm), if_neg (fun e => hj e.symm)]
      · rw [if_neg heq]
        by_cases hn : n = j
        · subst hn
          rw [if_neg (fun e => heq e.symm)]
          simp [PartitionStore.read]
        · simp only [PartitionStore.read, if_neg hn]
          exact ih (n + 1) w.2

/-- A write keeps the canonical form. -/
theorem PartitionStore.wfFrom_write (m : PartitionStore) (low k : Nat) (x : Partition) (h : low ≤ k)
    (w : PartitionStore.wfFrom low m = true) : PartitionStore.wfFrom low (m.write k x) = true := by
  induction m generalizing low with
  | nil =>
    simp only [PartitionStore.write]
    split <;> simp_all [PartitionStore.wfFrom]
  | cons e rest ih =>
    obtain ⟨n, p⟩ := e
    simp only [PartitionStore.wfFrom, Bool.and_eq_true, decide_eq_true_eq] at w
    simp only [PartitionStore.write]
    by_cases hlt : k < n
    · rw [if_pos hlt]
      split
      · simp [PartitionStore.wfFrom, w]
      · next hx =>
        simp [PartitionStore.wfFrom, h, hx, w]
        omega
    · rw [if_neg hlt]
      by_cases heq : k = n
      · rw [if_pos heq]
        split
        · exact PartitionStore.wfFrom_mono (by omega) rest w.2
        · next hx =>
          subst heq
          simp [PartitionStore.wfFrom, h, hx, w]
      · rw [if_neg heq]
        simp only [PartitionStore.wfFrom, Bool.and_eq_true, decide_eq_true_eq]
        exact ⟨w.1, ih (n + 1) (by omega) w.2⟩

theorem PartitionStore.wf_write (m : PartitionStore) (k : Nat) (x : Partition) (w : m.wf = true) : (m.write k x).wf = true :=
  PartitionStore.wfFrom_write m 0 k x (by omega) w

theorem PartitionStore.read_write_self (m : PartitionStore) (k : Nat) (x : Partition) (w : m.wf = true) : (m.write k x).read k = x := by
  simpa using PartitionStore.read_write m 0 k k x w

theorem PartitionStore.read_write_ne (m : PartitionStore) (k j : Nat) (x : Partition) (w : m.wf = true) (h : j ≠ k) :
    (m.write k x).read j = m.read j := by simpa [h] using PartitionStore.read_write m 0 k j x w

/-- The set put into a partition, and the other one. -/
@[simp] theorem Partition.get_put_self (p : Partition) (x : SetId) (c : CoeffSet) : (p.put x c).get x = c := by cases x <;> rfl
@[simp] theorem Partition.get_put_other (p : Partition) (x : SetId) (c : CoeffSet) : (p.put x.other c).get x = p.get x := by cases x <;> rfl
@[simp] theorem SetId.other_other (x : SetId) : x.other.other = x := by cases x <;> rfl
theorem SetId.other_ne (x : SetId) : x.other ≠ x := by cases x <;> decide

/-! ### Taking a command -/

/-- The reply queued by a command that is executed, in the state its execution answers. -/
theorem State.take_room (s : State) (code tag : Byte) (f : State → Answer) (h : s.control.replies.length < 16) :
    s.take code tag f = (f s).state.pushReply { tag := tag, code := code, outcome := (f s).outcome, payload := (f s).payload } := by
  simp [State.take, Config.replyCapacity, Nat.not_le.mpr h]

/-- With a full reply queue a command is not executed (R144). -/
theorem State.take_full (s : State) (code tag : Byte) (f : State → Answer) (h : 16 ≤ s.control.replies.length) :
    s.take code tag f = s.raise .replyOverflow (.tag tag) (some tag) := by
  simp [State.take, Config.replyCapacity, h]

/-- While the reset pin is not held, what reaches the part over its ports happens; while it is held, nothing does (R126). -/
theorem State.whilePortsRun_run (s : State) (f : State → State) (h : s.ports.pinHeld = false) : s.whilePortsRun f = f s := by
  simp [State.whilePortsRun, h]

theorem State.whilePortsRun_held (s : State) (f : State → State) (h : s.ports.pinHeld = true) : s.whilePortsRun f = s := by
  simp [State.whilePortsRun, h]

/-! ### The copies of a promotion or a reseed -/

@[simp] theorem State.appendSeed_channels (s : State) (r : SeedRequest) : (s.appendSeed r).channels = s.channels := rfl
@[simp] theorem State.appendSeed_paths (s : State) (r : SeedRequest) : (s.appendSeed r).paths = s.paths := rfl
@[simp] theorem State.appendSeed_pool (s : State) (r : SeedRequest) : (s.appendSeed r).pool = s.pool := rfl
@[simp] theorem State.appendSeed_queue (s : State) (r : SeedRequest) : (s.appendSeed r).seed.queue = s.seed.queue ++ [r] := rfl

/-- Nothing but paths and the seed queue changes when copies begin. -/
structure OnlyPaths (s t : State) : Prop where
  ports : t.ports = s.ports
  modulators : t.modulators = s.modulators
  references : t.references = s.references
  histories : t.histories = s.histories
  channels : t.channels = s.channels
  pathCount : t.paths.length = s.paths.length
  pool : t.pool = s.pool
  comparator : t.comparator = s.comparator
  granted : t.seed.granted = s.seed.granted
  decision : t.decision = s.decision
  control : t.control = s.control
  unit : t.unit = s.unit
  pending : t.pending = s.pending

theorem OnlyPaths.refl (s : State) : OnlyPaths s s := by constructor <;> rfl

theorem OnlyPaths.trans {s t u : State} (h : OnlyPaths s t) (k : OnlyPaths t u) : OnlyPaths s u where
  ports := k.ports.trans h.ports
  modulators := k.modulators.trans h.modulators
  references := k.references.trans h.references
  histories := k.histories.trans h.histories
  channels := k.channels.trans h.channels
  pathCount := k.pathCount.trans h.pathCount
  pool := k.pool.trans h.pool
  comparator := k.comparator.trans h.comparator
  granted := k.granted.trans h.granted
  decision := k.decision.trans h.decision
  control := k.control.trans h.control
  unit := k.unit.trans h.unit
  pending := k.pending.trans h.pending

theorem State.beginCopy_only (s : State) (flip : Bool) (p : Nat) : OnlyPaths s (s.beginCopy flip p) := by
  constructor <;> simp [State.beginCopy, State.appendSeed, State.putPath, State.setPaths, State.setSeed]

theorem State.foldl_beginCopy_only (s : State) (flip : Bool) (l : List Nat) : OnlyPaths s (l.foldl (fun s p => s.beginCopy flip p) s) := by
  induction l generalizing s with
  | nil => exact OnlyPaths.refl s
  | cons p rest ih => exact (s.beginCopy_only flip p).trans (ih _)

theorem State.beginCopies_only (s : State) (flip : Bool) (c : Nat) : OnlyPaths s (s.beginCopies flip c) := s.foldl_beginCopy_only flip _

/-- Beginning copies on a list of distinct paths: each becomes SEEDING, its live set flipped or kept, every other record stands, and the
requests join the seed queue in the list's order (R74, R76). -/
theorem State.foldl_beginCopy (s : State) (flip : Bool) (l : List Nat) (d : l.Nodup) (b : ∀ p ∈ l, p < s.paths.length) :
    let t := l.foldl (fun s p => s.beginCopy flip p) s
    (∀ p ∈ l, t.path p = { s.path p with live := if flip then (s.path p).live.other else (s.path p).live, state := .seeding }) ∧
      (∀ p, p ∉ l → t.path p = s.path p) ∧ t.seed.queue = s.seed.queue ++ l.map fun p => wholeChain p .copy (s.path p) := by
  induction l generalizing s with
  | nil => simp
  | cons a rest ih =>
    obtain ⟨da, dr⟩ := List.nodup_cons.mp d
    have hlen : (s.beginCopy flip a).paths.length = s.paths.length := (s.beginCopy_only flip a).pathCount
    have hself : (s.beginCopy flip a).path a =
        { s.path a with live := if flip then (s.path a).live.other else (s.path a).live, state := .seeding } := by
      have := b a (by simp)
      simp [State.beginCopy, State.appendSeed, State.path, State.putPath, State.setPaths, State.setSeed, this]
    have hne : ∀ p, p ≠ a → (s.beginCopy flip a).path p = s.path p := by
      intro p hp
      simp [State.beginCopy, State.appendSeed, State.path, State.putPath, State.setPaths, State.setSeed, List.getElem?_set_ne hp.symm]
    have hq : (s.beginCopy flip a).seed.queue = s.seed.queue ++ [wholeChain a .copy (s.path a)] := rfl
    have step := ih (s.beginCopy flip a) dr (by intro p hp; rw [hlen]; exact b p (by simp [hp]))
    simp only [List.foldl_cons] at step ⊢
    obtain ⟨s1, s2, s3⟩ := step
    refine ⟨?_, ?_, ?_⟩
    · intro p hp
      rcases List.mem_cons.mp hp with rfl | hr
      · rw [s2 _ da, hself]
      · rw [s1 p hr, hne p (fun e => da (e ▸ hr))]
    · intro p hp
      simp only [List.mem_cons, not_or] at hp
      rw [s2 p hp.2, hne p hp.1]
    · rw [s3, hq, List.map_cons, List.append_assoc, List.singleton_append]
      congr 2
      apply List.map_congr_left
      intro p hp
      rw [hne p (fun e => da (e ▸ hp))]

end Sys2Proof.Machine
end

