-- ==== Sys2Proof/Laws/Blocks.lean ====
section
/-! SUPPORT. What the channel blocks of an inbound link block can do, said once, and the interludes between them; the flags a block reads from the state; the sets a path's adaptation writes; taps that do not move; when an unmasked grave status stands. -/

namespace Sys2Proof.Machine

/-! ### Reading -/

/-- Flag F as a proposition (R100). -/
theorem State.farIndication_iff (s : State) (c : Nat) :
    s.farIndication c = true ↔ ∃ p ∈ (s.channel c).paths, ∃ r, (s.path p).reference = some r ∧ (s.reference r).active = true := by
  simp only [State.farIndication, List.any_eq_true]
  refine exists_congr fun p => and_congr_right fun _ => ?_
  cases (s.path p).reference <;> simp

/-- A channel that names a slot is in the table. -/
theorem State.channel_lt (s : State) (c k : Nat) (h : (s.channel c).slot = some k) : c < s.channels.length := by
  by_contra hn
  simp [State.channel, List.getElem?_eq_none (by omega : s.channels.length ≤ c), Channel.initial] at h

/-- A path in use is in the table. -/
theorem State.path_lt (s : State) (p : Nat) (h : (s.path p).state ≠ .unused) : p < s.paths.length := by
  by_contra hn
  simp [State.path, List.getElem?_eq_none (by omega : s.paths.length ≤ p), PathRecord.unused] at h

/-- The lowest UNUSED record is the one with none below it (R14). -/
theorem State.lowestUnused_eq (s : State) (p : Nat) (h : p < 64) (u : (s.path p).state = .unused)
    (below : ∀ q < p, (s.path q).state ≠ .unused) : s.lowestUnused = some p := by
  unfold State.lowestUnused Config.numPaths
  rw [List.find?_eq_some_iff_getElem]
  refine ⟨by simp [u], p, by simpa using h, by simp, ?_⟩
  intro j hj
  simpa using below j hj

theorem State.lowestUnused_none (s : State) (h : ∀ p < 64, (s.path p).state ≠ .unused) : s.lowestUnused = none := by
  unfold State.lowestUnused Config.numPaths
  rw [List.find?_eq_none]
  intro x hx
  simpa using h x (by simpa using hx)

/-- Sets all read without a mismatch report nothing (R59). -/
theorem chainFaults_good (p : Nat) (xs ys : List CoeffSet) (k : Nat) (hx : ∀ x ∈ xs, x.upset = false) (hy : ∀ y ∈ ys, y.upset = false) :
    chainFaults p k xs ys = [] := by
  induction xs generalizing ys k with
  | nil => cases ys <;> rfl
  | cons x xs ih =>
    cases ys with
    | nil => rfl
    | cons y ys =>
      simp [chainFaults, hx x (by simp), hy y (by simp),
        ih ys (k + 1) (fun a ha => hx a (by simp [ha])) (fun a ha => hy a (by simp [ha]))]

/-- Entries all read without a mismatch report nothing (R106). -/
theorem matchEntries_good (flags : TalkFlags) (entries : List DecisionEntry) (i : Nat) (h : ∀ e ∈ entries, e.parityBad = false) :
    (matchEntries flags i entries).2 = [] := by
  induction entries generalizing i with
  | nil => rfl
  | cons e rest ih =>
    simp only [matchEntries, h e (by simp), Bool.false_eq_true, if_false]
    split
    · rfl
    · exact ih (i + 1) fun x hx => h x (by simp [hx])

/-- Some bit of a set of classes is set exactly when some class is in it. -/
theorem classSet_ne_zero (x : BitVec 12) : x ≠ 0 ↔ ∃ c : FaultClass, x.getLsbD c.code = true := by
  constructor
  · intro h
    by_contra hn
    push Not at hn
    apply h
    apply BitVec.eq_of_getLsbD_eq
    intro i hi
    have hc : ∃ c : FaultClass, c.code = i := by
      interval_cases i
      · exact ⟨.headerCrc, rfl⟩
      · exact ⟨.packetError, rfl⟩
      · exact ⟨.clockUnlock, rfl⟩
      · exact ⟨.coreSilence, rfl⟩
      · exact ⟨.roomSilence, rfl⟩
      · exact ⟨.forwardOverflow, rfl⟩
      · exact ⟨.replyOverflow, rfl⟩
      · exact ⟨.noticeOverflow, rfl⟩
      · exact ⟨.captureClip, rfl⟩
      · exact ⟨.channelUnstable, rfl⟩
      · exact ⟨.coeffParity, rfl⟩
      · exact ⟨.tableParity, rfl⟩
    obtain ⟨c, rfl⟩ := hc
    simpa using hn c
  · rintro ⟨c, hc⟩ rfl
    simp at hc

theorem FaultClass.code_lt (c : FaultClass) : c.code < 12 := by cases c <;> decide

/-- The unmasked grave statuses, as a number and as a proposition (R162, R163). -/
theorem FaultUnit.graveSet_iff (u : FaultUnit) : u.graveSet = true ↔ Safety.GraveStands u := by
  unfold FaultUnit.graveSet Safety.GraveStands FaultUnit.isSet FaultUnit.grave FaultUnit.masked
  rw [bne_iff_ne, classSet_ne_zero]
  simp [FaultClass.code_lt, and_assoc]

/-- A set of classes names no class exactly when it is 4096 or more. -/
theorem namesNoClass_eq (h : Half) : namesNoClass h = decide (4096 ≤ h.toNat) := by
  unfold namesNoClass
  rw [Bool.eq_iff_iff]
  simp [← BitVec.toNat_inj, BitVec.extractLsb'_toNat]
  have := h.isLt
  omega

/-! ### Adaptation's writes -/

/-- A chain of distinct partitions moved: each one's set from its old taps, with fresh parity, and no other partition (R57). -/
theorem State.moveChain_spec (set : SetId) (divisor : Nat) (residual : List Int) (history : List Slot) (ns : List Nat) (s : State) (age : Nat)
    (w : s.pool.cells.wf = true) (d : ns.Nodup) :
    ∃ cells, s.moveChain set divisor residual history age ns (ns.map fun n => s.coeffs n set) =
        { s with pool := { s.pool with cells := cells } } ∧ cells.wf = true ∧
      (∀ k n, ns[k]? = some n →
        cells.read n =
          (s.pool.cells.read n).put set
            { taps := movedTaps divisor residual (alignedRun history (age + k)) ((s.pool.cells.read n).get set).read, upset := false }) ∧
      ∀ n, n ∉ ns → cells.read n = s.pool.cells.read n := by
  induction ns generalizing s age with
  | nil => exact ⟨s.pool.cells, rfl, w, by simp, by simp⟩
  | cons a rest ih =>
    obtain ⟨da, dr⟩ := List.nodup_cons.mp d
    simp only [List.map_cons, State.moveChain]
    set s1 := s.writeSet a set (movedTaps divisor residual (alignedRun history age) (s.coeffs a set).read) with hs1
    have hc1 : s1.pool.cells = s.pool.cells.write a ((s.pool.cells.read a).put set
        { taps := movedTaps divisor residual (alignedRun history age) (s.coeffs a set).read, upset := false }) := rfl
    have hr : ∀ n, n ≠ a → s1.pool.cells.read n = s.pool.cells.read n := fun n hn => by rw [hc1, PartitionStore.read_write_ne _ _ _ _ w hn]
    have hm : (rest.map fun n => s.coeffs n set) = rest.map fun n => s1.coeffs n set := by
      apply List.map_congr_left
      intro n hn
      simp only [State.coeffs]
      rw [hr n (fun e => da (e ▸ hn))]
    rw [hm]
    obtain ⟨cells, e1, e2, e3, e4⟩ := ih s1 (age + 1) (by rw [hc1]; exact PartitionStore.wf_write _ _ _ w) dr
    refine ⟨cells, by rw [e1]; rfl, e2, ?_, ?_⟩
    · intro k n hk
      cases k with
      | zero =>
        simp at hk
        subst hk
        rw [e4 _ da, hc1, PartitionStore.read_write_self _ _ _ w]
        rfl
      | succ k =>
        simp at hk
        have hne : n ≠ a := fun e => da (e ▸ List.mem_of_getElem? hk)
        rw [e3 k n hk, hr n hne]
        congr 4
        ring_nf
    · intro n hn
      simp at hn
      rw [e4 n hn.2, hr n hn.1]

/-! ### What channel blocks leave alone -/

/-- What the channel blocks of an inbound link block leave alone: everything but the fault unit's log and operating state, the notice queue, the
modulators' memories, the stored sets, the seed queue, a path's state and live set, and the working fields of a channel. -/
structure BlockWork (s t : State) : Prop where
  ports : t.ports = s.ports
  references : t.references = s.references
  histories : t.histories = s.histories
  comparator : t.comparator = s.comparator
  decision : t.decision = s.decision
  pending : t.pending = s.pending
  free : t.pool.free = s.pool.free
  granted : t.seed.granted = s.seed.granted
  replies : t.control.replies = s.control.replies
  forward : t.control.forward = s.control.forward
  streamer : t.control.streamer = s.control.streamer
  sweeps : t.modulators.map Modulator.sweep = s.modulators.map Modulator.sweep
  bounded : s.control.notices.length ≤ 8 → t.control.notices.length ≤ 8
  statuses : ∀ c, s.unit.isSet c = true → t.unit.isSet c = true
  records : t.paths.map (fun r => (r.owner, r.reference, r.chain, r.step, r.readHeld)) =
    s.paths.map fun r => (r.owner, r.reference, r.chain, r.step, r.readHeld)
  bindings : t.channels.map (fun ch => (ch.slot, ch.mode, ch.parityBad, ch.paths, ch.frozen)) =
    s.channels.map fun ch => (ch.slot, ch.mode, ch.parityBad, ch.paths, ch.frozen)

theorem BlockWork.refl (s : State) : BlockWork s s := by constructor <;> simp

theorem BlockWork.trans {s t u : State} (h : BlockWork s t) (k : BlockWork t u) : BlockWork s u where
  ports := k.ports.trans h.ports
  references := k.references.trans h.references
  histories := k.histories.trans h.histories
  comparator := k.comparator.trans h.comparator
  decision := k.decision.trans h.decision
  pending := k.pending.trans h.pending
  free := k.free.trans h.free
  granted := k.granted.trans h.granted
  replies := k.replies.trans h.replies
  forward := k.forward.trans h.forward
  streamer := k.streamer.trans h.streamer
  sweeps := k.sweeps.trans h.sweeps
  bounded := fun b => k.bounded (h.bounded b)
  statuses := fun c b => k.statuses c (h.statuses c b)
  records := k.records.trans h.records
  bindings := k.bindings.trans h.bindings

theorem Reports.blockWork {s t : State} (h : Reports s t) : BlockWork s t where
  ports := h.ports
  references := h.references
  histories := h.histories
  comparator := h.comparator
  decision := h.decision
  pending := h.pending
  free := by rw [h.pool]
  granted := by rw [h.seed]
  replies := h.replies
  forward := h.forward
  streamer := h.streamer
  sweeps := h.sweeps
  bounded := h.bounded
  statuses := h.statuses
  records := by rw [h.paths]
  bindings := by rw [h.channels]

theorem List.map_set_same {α β : Type} (f : α → β) (l : List α) (n : Nat) (d x : α) (h : f x = f (l.getD n d)) :
    (l.set n x).map f = l.map f := by
  by_cases hn : n < l.length
  · rw [List.map_set, h, List.getD_eq_getElem _ _ hn, ← List.map_set, List.set_getElem_self]
  · rw [List.set_eq_of_length_le (by omega)]

/-- A channel's working fields replaced. -/
theorem State.putChannel_blockWork (s : State) (c : Nat) (x : Channel)
    (h : (x.slot, x.mode, x.parityBad, x.paths, x.frozen) =
      ((s.channel c).slot, (s.channel c).mode, (s.channel c).parityBad, (s.channel c).paths, (s.channel c).frozen)) :
    BlockWork s (s.putChannel c x) := by
  constructor <;> simp
  have := List.map_set_same (fun ch : Channel => (ch.slot, ch.mode, ch.parityBad, ch.paths, ch.frozen)) s.channels c (Channel.initial c) x h
  simpa using this

theorem State.putComparison_blockWork (s : State) (c : Nat) (m : ComparisonState) : BlockWork s (s.putComparison c m) :=
  s.putChannel_blockWork c _ rfl

theorem State.beginCopy_blockWork (s : State) (flip : Bool) (p : Nat) : BlockWork s (s.beginCopy flip p) := by
  constructor <;> simp [State.beginCopy, State.appendSeed]
  have := List.map_set_same (fun r : PathRecord => (r.owner, r.reference, r.chain, r.step, r.readHeld)) s.paths p PathRecord.unused
    { s.path p with live := if flip then (s.path p).live.other else (s.path p).live, state := .seeding } rfl
  simpa using this

theorem State.beginCopies_blockWork (s : State) (flip : Bool) (c : Nat) : BlockWork s (s.beginCopies flip c) := by
  unfold State.beginCopies
  generalize (s.channel c).paths = l
  induction l generalizing s with
  | nil => exact BlockWork.refl s
  | cons p rest ih => exact (s.beginCopy_blockWork flip p).trans (ih _)

theorem State.applyPromotion_blockWork (s : State) (c : Nat) : BlockWork s (s.applyPromotion c) :=
  (s.beginCopies_blockWork true c).trans (State.putComparison_blockWork _ c _)

theorem State.applyReseed_blockWork (s : State) (c : Nat) : BlockWork s (s.applyReseed c) := by
  have h := (s.beginCopies_blockWork false c).trans (State.putComparison_blockWork (s.beginCopies false c) c
    { ((s.beginCopies false c).channel c).comparison with
      promoteStreak := 0, divergenceStreak := 0, pendingPromote := false,
      reseedCount :=
        if ((s.beginCopies false c).channel c).comparison.reseedCount < s.comparator.reseedLimit then
          ((s.beginCopies false c).channel c).comparison.reseedCount + 1
        else ((s.beginCopies false c).channel c).comparison.reseedCount })
  unfold State.applyReseed
  simp only
  split
  · exact h.trans (State.raise_reports _ _ _ _).blockWork
  · exact h

theorem State.promotionDue_blockWork (s : State) (c : Nat) : BlockWork s (s.promotionDue c) := by
  unfold State.promotionDue
  split
  · exact s.putComparison_blockWork c _
  · exact s.applyPromotion_blockWork c

theorem State.judgeWindow_blockWork (s : State) (c : Nat) : BlockWork s (s.judgeWindow c) := by
  unfold State.judgeWindow
  simp only
  split
  · exact (s.putComparison_blockWork c _).trans (State.promotionDue_blockWork _ c)
  · split
    · exact (s.putComparison_blockWork c _).trans (State.applyReseed_blockWork _ c)
    · exact s.putComparison_blockWork c _

theorem State.endWindow_blockWork (s : State) (c : Nat) : BlockWork s (s.endWindow c) := by
  unfold State.endWindow
  simp only
  split
  · exact State.putComparison_blockWork _ c _
  · exact (s.judgeWindow_blockWork c).trans (State.putComparison_blockWork _ c _)

/-- Stage 7 of a block leaves alone what channel blocks leave alone (R69). -/
theorem State.accumulateWindow_blockWork (s : State) (c : Nat) (x : WindowShare) : BlockWork s (s.accumulateWindow c x) := by
  unfold State.accumulateWindow
  simp only
  split
  · exact (s.putComparison_blockWork c _).trans (State.endWindow_blockWork _ c)
  · exact s.putComparison_blockWork c _

theorem State.clipTest_blockWork (s : State) (c : Nat) (clipped : Bool) : BlockWork s (s.clipTest c clipped) := by
  unfold State.clipTest
  simp only
  split
  · split
    · split
      · exact (s.putChannel_blockWork c { s.channel c with clipRun := (s.channel c).clipRun + 1 } rfl).trans
          (State.raise_reports _ _ _ _).blockWork
      · exact s.putChannel_blockWork c { s.channel c with clipRun := (s.channel c).clipRun + 1 } rfl
    · exact BlockWork.refl s
  · exact s.putChannel_blockWork c { s.channel c with clipRun := 0 } rfl

theorem State.writePartition_blockWork (s : State) (n : Nat) (x : Partition) : BlockWork s (s.writePartition n x) := by
  constructor <;> simp [State.writePartition]

theorem State.moveChain_blockWork (s : State) (set : SetId) (divisor : Nat) (residual : List Int) (history : List Slot) (age : Nat)
    (ns : List Nat) (xs : List CoeffSet) : BlockWork s (s.moveChain set divisor residual history age ns xs) := by
  induction ns generalizing s age xs with
  | nil => cases xs <;> exact BlockWork.refl s
  | cons n ns ih =>
    cases xs with
    | nil => exact BlockWork.refl s
    | cons x xs => exact (s.writePartition_blockWork n _).trans (ih _ _ _)

theorem State.adaptPath_blockWork (s : State) (frozen : Bool) (action : Action) (residual : List Int) (r : PathRead) :
    BlockWork s (s.adaptPath frozen action residual r) := by
  unfold State.adaptPath
  split
  · exact s.moveChain_blockWork _ _ _ _ _ _ _
  · exact BlockWork.refl s

/-- Steps that each leave alone what channel blocks leave alone, one after another. -/
theorem BlockWork.foldl {α : Type} (f : State → α → State) (h : ∀ s x, BlockWork s (f s x)) (l : List α) (s : State) :
    BlockWork s (l.foldl f s) := by
  induction l generalizing s with
  | nil => exact BlockWork.refl s
  | cons x rest ih => exact (h s x).trans (ih _)

/-- A channel record is bound as it was. -/
theorem BlockWork.channel {s t : State} (h : BlockWork s t) (c : Nat) :
    ((t.channel c).slot, (t.channel c).mode, (t.channel c).parityBad, (t.channel c).paths, (t.channel c).frozen) =
      ((s.channel c).slot, (s.channel c).mode, (s.channel c).parityBad, (s.channel c).paths, (s.channel c).frozen) := by
  have e := congrArg (fun l => l[c]?) h.bindings
  simp only [List.getElem?_map] at e
  simp only [State.channel, List.getD_eq_getElem?_getD]
  revert e
  cases t.channels[c]? <;> cases s.channels[c]? <;> simp

theorem State.cancelBlock_blockWork (s : State) (c : Nat) (clipped : Bool) (capture : Slot) :
    BlockWork s (s.cancelBlock c clipped capture).2 := by
  unfold State.cancelBlock
  simp only
  refine BlockWork.trans ?_ (State.accumulateWindow_blockWork _ c _)
  have h : ∀ (frozen : Bool) (action : Action) (residual : List Int) (reads : List PathRead) (faults entries : List (FaultClass × Subject)),
      BlockWork s (reads.foldl (fun s r => s.adaptPath frozen action residual r) ((s.raiseAll faults).raiseAll entries)) :=
    fun frozen action residual reads faults entries =>
      ((s.raiseAll_reports faults).blockWork.trans (State.raiseAll_reports _ entries).blockWork).trans
        (BlockWork.foldl _ (fun s r => s.adaptPath_blockWork frozen action residual r) reads _)
  refine BlockWork.trans (h _ _ _ _ _ _) (State.putChannel_blockWork _ c _ ?_)
  exact ((h _ _ _ _ _ _).channel c).symm

/-- One channel's block leaves alone what channel blocks leave alone, and every slot but the one the channel names (R31). -/
theorem State.channelBlock_spec (op : OpState) (action : SafeAction) (arrived slots : List Slot) (s : State) (c : Nat) :
    BlockWork s (State.channelBlock op action arrived (slots, s) c).2 ∧
      Safety.SameElsewhere (fun k => (s.channel c).slot = some k) slots (State.channelBlock op action arrived (slots, s) c).1 := by
  unfold State.channelBlock
  simp only
  split
  · exact ⟨(s.raise_reports _ _ _).blockWork, rfl, fun _ _ => rfl⟩
  · split
    · exact ⟨BlockWork.refl s, rfl, fun _ _ => rfl⟩
    · next k hk =>
      split
      · refine ⟨(s.clipTest_blockWork c _).trans (State.cancelBlock_blockWork _ c _ _), by simp, fun j hj => ?_⟩
        have hne : k ≠ j := fun e => hj (e ▸ hk)
        simp [List.getElem?_set_ne hne]
      · refine ⟨s.clipTest_blockWork c _, by simp, fun j hj => ?_⟩
        have hne : k ≠ j := fun e => hj (e ▸ hk)
        simp [List.getElem?_set_ne hne]

/-- Where nothing comes between the channel blocks, they run one after another (R160). -/
theorem State.processSlots_nil (s : State) (slots : List Slot) :
    s.processSlots [] slots = (List.range 24).foldl (State.channelBlock s.unit.opState s.unit.safeAction slots) (slots, s) := rfl

/-- The channel blocks of an inbound link block with nothing between them: what they leave alone, and every slot that no channel names
(R31, R137). -/
theorem State.processSlots_spec (s : State) (slots : List Slot) :
    BlockWork s (s.processSlots [] slots).2 ∧
      Safety.SameElsewhere (fun k => ∃ c < 24, (s.channel c).slot = some k) slots (s.processSlots [] slots).1 := by
  rw [State.processSlots_nil]
  have h : ∀ (arrived : List Slot) (l : List Nat) (slots : List Slot) (t : State), BlockWork s t → (∀ c ∈ l, c < 24) →
      BlockWork s (l.foldl (State.channelBlock s.unit.opState s.unit.safeAction arrived) (slots, t)).2 ∧
        Safety.SameElsewhere (fun k => ∃ c < 24, (s.channel c).slot = some k) slots (l.foldl (State.channelBlock s.unit.opState s.unit.safeAction arrived) (slots, t)).1 := by
    intro arrived l
    induction l with
    | nil => exact fun slots t w _ => ⟨w, rfl, fun _ _ => rfl⟩
    | cons c rest ih =>
      intro slots t w hl
      obtain ⟨w1, l1, e1⟩ := State.channelBlock_spec s.unit.opState s.unit.safeAction arrived slots t c
      obtain ⟨w2, l2, e2⟩ := ih (State.channelBlock s.unit.opState s.unit.safeAction arrived (slots, t) c).1
        (State.channelBlock s.unit.opState s.unit.safeAction arrived (slots, t) c).2 (w.trans w1) fun j hj => hl j (by simp [hj])
      refine ⟨w2, l2.trans l1, fun k hk => (e2 k hk).trans (e1 k fun hc => hk ⟨c, hl c (by simp), ?_⟩)⟩
      have := congrArg Prod.fst (w.channel c)
      simp only at this
      rw [← this]
      exact hc
  exact h slots _ slots s (BlockWork.refl s) (by simp)

/-! ### Taps that do not move (R55) -/

/-- A whole multiple of the divisor is divided without rounding. -/
theorem roundDiv_mul (t : Int) (d : Nat) (h : 0 < d) : roundDiv (t * d) d = t := by
  unfold roundDiv
  have hd : (0 : Int) < d := by exact_mod_cast h
  have key : ∀ u : Int, (2 * (u * d) + d) / (2 * d) = u := fun u => by
    rw [show (2 : Int) * (u * d) + d = d + u * (2 * d) by ring, Int.add_mul_ediv_right _ _ (by omega),
      Int.ediv_eq_zero_of_lt (by omega) (by omega), zero_add]
  split
  · exact key t
  · rw [show -(t * (d : Int)) = -t * d by ring, key, neg_neg]

/-- A 24-bit code is within full scale. -/
theorem limit24_toInt (x : Sample) : limit24 x.toInt = x := by
  have h1 := BitVec.le_toInt x
  have h2 := BitVec.toInt_lt (x := x)
  unfold limit24
  rw [min_eq_right (by norm_num at h2; omega), max_eq_right (by norm_num at h1; omega), BitVec.ofInt_toInt]

/-- A run of zeros adds nothing. -/
theorem dot_zeros (xs : List Int) (n : Nat) : dot xs (List.replicate n 0) = 0 := by
  induction n generalizing xs with
  | zero => cases xs <;> rfl
  | succ n ih => cases xs with
    | nil => rfl
    | cons x xs => simp [List.replicate_succ, dot, ih]

/-- Taps whose aligned samples are all zero do not move (R55, R57). -/
theorem movedTaps_silent (divisor : Nat) (h : 0 < divisor) (residual : List Int) (age : Nat) (taps : Slot) :
    movedTaps divisor residual (alignedRun [] age) taps = taps := by
  have hz : alignedRun [] age = List.replicate 128 0 := by
    simp [alignedRun, historyBlock, values, silence]
  have one : ∀ (tap : Sample) (j : Nat), movedTap divisor residual (alignedRun [] age) tap j = tap := fun tap j => by
    unfold movedTap alignedForTap
    rw [hz, List.drop_replicate, dot_zeros, mul_zero, add_zero, roundDiv_mul _ _ h, limit24_toInt]
  unfold movedTaps
  simp only [one]
  exact List.mapIdx_eq_iff.mpr fun j => by cases taps[j]? <;> rfl

/-! ### What comes between channel blocks (R49, R112) -/

/-- The interludes before one channel's block: what each of them keeps, all of them keep. -/
theorem State.takeInterludes_induction (P : State → Prop) (between : List (Nat × Interlude)) (s : State) (c : Nat) (h : P s)
    (interlude : ∀ t x, P t → P (t.takeInterlude x)) : P (s.takeInterludes between c) := by
  unfold State.takeInterludes
  generalize between.filter (fun x => x.1 == c) = l
  induction l generalizing s with
  | nil => exact h
  | cons x rest ih => exact ih _ (interlude s x.2 h)

/-- The processing of an inbound link block: what every channel block and every interlude keeps, the whole of it keeps. -/
theorem State.processSlots_induction (P : State → Prop) (s : State) (between : List (Nat × Interlude)) (slots : List Slot) (h : P s)
    (block : ∀ op action arrived slots t c, P t → P (State.channelBlock op action arrived (slots, t) c).2)
    (interlude : ∀ t x, P t → P (t.takeInterlude x)) : P (s.processSlots between slots).2 := by
  unfold State.processSlots
  generalize List.range Config.numChannels = l
  have key : ∀ (l : List Nat) (acc : List Slot × State), P acc.2 →
      P (l.foldl (State.channelTurn s.unit.opState s.unit.safeAction slots between) acc).2 := by
    intro l
    induction l with
    | nil => exact fun _ w => w
    | cons c rest ih => exact fun acc w => ih _ (block _ _ _ _ _ _ (State.takeInterludes_induction P between acc.2 c w interlude))
  exact key l (slots, s) h

/-- The processing of an inbound link block gives back as many slots as it was given (R31). -/
theorem State.processSlots_length (s : State) (between : List (Nat × Interlude)) (slots : List Slot) :
    (s.processSlots between slots).1.length = slots.length := by
  unfold State.processSlots
  generalize List.range Config.numChannels = l
  have key : ∀ (l : List Nat) (acc : List Slot × State), (l.foldl (State.channelTurn s.unit.opState s.unit.safeAction slots between) acc).1.length =
      acc.1.length := by
    intro l
    induction l with
    | nil => exact fun _ => rfl
    | cons c rest ih =>
      intro acc
      exact (ih _).trans (State.channelBlock_spec _ _ slots acc.1 (acc.2.takeInterludes between c) c).2.1
  exact key l (slots, s)

end Sys2Proof.Machine
end

