-- ==== Sys2Proof/Laws/Packets.lean ====
section
/-! SUPPORT. Fields written to their bytes and read back: two-byte fields, samples, slots; how long a payload is. -/

namespace Sys2Proof.Machine

/-- A two-byte field read back from its bytes. -/
@[simp] theorem halfOf_halfBytes (h : Half) : halfOf (h.extractLsb' 8 8) (h.extractLsb' 0 8) = h := by
  apply BitVec.eq_of_getLsbD_eq
  intro i hi
  simp only [halfOf, BitVec.getLsbD_append, BitVec.getLsbD_extractLsb']
  by_cases h8 : i < 8
  · simp [h8]
  · simp [h8, show i - 8 < 8 by omega, show 8 + (i - 8) = i by omega]

/-- A sample read back from its bytes. -/
@[simp] theorem sample_sampleBytes (x : Sample) : (x.extractLsb' 16 8 ++ x.extractLsb' 8 8 ++ x.extractLsb' 0 8 : BitVec 24) = x := by
  apply BitVec.eq_of_getLsbD_eq
  intro i hi
  simp only [BitVec.getLsbD_append, BitVec.getLsbD_extractLsb']
  by_cases h8 : i < 8
  · simp [h8]
  · by_cases h16 : i < 16
    · simp [h8, show i - 8 < 8 by omega, show 8 + (i - 8) = i by omega]
    · simp [h8, show ¬i - 8 < 8 by omega, show i - 8 - 8 < 8 by omega, show 16 + (i - 8 - 8) = i by omega]

/-- The samples of a slot read back from its bytes. -/
@[simp] theorem samplesOf_slotBytes (b : Slot) : samplesOf (slotBytes b) = b := by
  induction b with
  | nil => rfl
  | cons x xs ih =>
    simp only [slotBytes, List.flatMap_cons, sampleBytes, List.cons_append, List.nil_append, samplesOf, sample_sampleBytes] at ih ⊢
    rw [ih]

@[simp] theorem slotBytes_length (b : Slot) : (slotBytes b).length = 3 * b.length := by
  induction b with
  | nil => rfl
  | cons x xs ih =>
    simp only [slotBytes, List.flatMap_cons, List.length_append, sampleBytes, List.length_cons, List.length_nil] at ih ⊢
    omega

@[simp] theorem halfBytes_length (h : Half) : (halfBytes h).length = 2 := rfl

end Sys2Proof.Machine
end

