-- ==== Sys2Proof/Laws/PerInstr.lean ====
section
/-! SUPPORT. One lemma for each row: the payload a command row is sent with has the length of its code. -/

namespace Sys2Proof.Laws

/-- A row that is a command is sent in a payload of the length that spec/11 section 11.4 gives its code. -/
def Payload.Statement (i : Instr) : Prop :=
  ∀ (code tag : Byte) (payload : List Byte), i.wellFormed = true → Machine.commandOf i = some (code, tag, payload) →
    Machine.commandLength code = some payload.length

theorem Payload.powerOn : Payload.Statement (.powerOn) := by
  intro _ _ _ _ h
  cases h

theorem Payload.resetPinAssert : Payload.Statement (.resetPinAssert) := by
  intro _ _ _ _ h
  cases h

theorem Payload.resetPin : Payload.Statement (.resetPin) := by
  intro _ _ _ _ h
  cases h

theorem Payload.outboundGoodArrival (seq flags : Byte) (slots : List Slot) (window : List Byte) (stepFirst : Bool) :
    Payload.Statement (.outboundGoodArrival seq flags slots window stepFirst) := by
  intro _ _ _ _ h
  cases h

theorem Payload.outboundBadArrival (slots : List Slot) : Payload.Statement (.outboundBadArrival slots) := by
  intro _ _ _ _ h
  cases h

theorem Payload.blockIntervalTimerExpiry : Payload.Statement (.blockIntervalTimerExpiry) := by
  intro _ _ _ _ h
  cases h

theorem Payload.lockAcquired : Payload.Statement (.lockAcquired) := by
  intro _ _ _ _ h
  cases h

theorem Payload.lockLoss : Payload.Statement (.lockLoss) := by
  intro _ _ _ _ h
  cases h

theorem Payload.coreSilence : Payload.Statement (.coreSilence) := by
  intro _ _ _ _ h
  cases h

theorem Payload.roomSilenceAdvance (between : List (Nat × Interlude)) : Payload.Statement (.roomSilenceAdvance between) := by
  intro _ _ _ _ h
  cases h

theorem Payload.roomSilence (between : List (Nat × Interlude)) : Payload.Statement (.roomSilence between) := by
  intro _ _ _ _ h
  cases h

theorem Payload.inboundGoodArrival (seq flags : Byte) (slots : List Slot) (window : List Byte) (between : List (Nat × Interlude)) :
    Payload.Statement (.inboundGoodArrival seq flags slots window between) := by
  intro _ _ _ _ h
  cases h

theorem Payload.inboundBadArrival (slots : List Slot) (between : List (Nat × Interlude)) :
    Payload.Statement (.inboundBadArrival slots between) := by
  intro _ _ _ _ h
  cases h

theorem Payload.inboundBlockTransmit : Payload.Statement (.inboundBlockTransmit) := by
  intro _ _ _ _ h
  cases h

theorem Payload.seedStep : Payload.Statement (.seedStep) := by
  intro _ _ _ _ h
  cases h

theorem Payload.windowEnd (channel capture live background : Nat) : Payload.Statement (.windowEnd channel capture live background) := by
  intro _ _ _ _ h
  cases h

theorem Payload.captureClip (channel : Nat) : Payload.Statement (.captureClip channel) := by
  intro _ _ _ _ h
  cases h

theorem Payload.activityHangoverExpiry (reference : Nat) : Payload.Statement (.activityHangoverExpiry reference) := by
  intro _ _ _ _ h
  cases h

theorem Payload.nearHangoverExpiry (channel : Nat) : Payload.Statement (.nearHangoverExpiry channel) := by
  intro _ _ _ _ h
  cases h

theorem Payload.allocatePath (tag channel reference : Byte) (length : Half) (step : Byte) : Payload.Statement (.allocatePath tag channel reference length step) := by
  intro _ _ _ _ h
  cases h
  rfl

theorem Payload.releasePath (tag path : Byte) : Payload.Statement (.releasePath tag path) := by
  intro _ _ _ _ h
  cases h
  rfl

theorem Payload.resizePath (tag path : Byte) (length : Half) : Payload.Statement (.resizePath tag path length) := by
  intro _ _ _ _ h
  cases h
  rfl

theorem Payload.setStep (tag path step : Byte) : Payload.Statement (.setStep tag path step) := by
  intro _ _ _ _ h
  cases h
  rfl

theorem Payload.readPathRecord (tag path : Byte) : Payload.Statement (.readPathRecord tag path) := by
  intro _ _ _ _ h
  cases h
  rfl

theorem Payload.readPool (tag : Byte) : Payload.Statement (.readPool tag) := by
  intro _ _ _ _ h
  cases h
  rfl

theorem Payload.readChain (tag selector : Byte) (start : Half) (count : Byte) : Payload.Statement (.readChain tag selector start count) := by
  intro _ _ _ _ h
  cases h
  rfl

theorem Payload.writeChannel (tag channel slot mode : Byte) : Payload.Statement (.writeChannel tag channel slot mode) := by
  intro _ _ _ _ h
  cases h
  rfl

theorem Payload.readChannel (tag channel : Byte) : Payload.Statement (.readChannel tag channel) := by
  intro _ _ _ _ h
  cases h
  rfl

theorem Payload.writeReference (tag reference slot bulk depth : Byte) (threshold : Half) (hangover : Byte) : Payload.Statement (.writeReference tag reference slot bulk depth threshold hangover) := by
  intro _ _ _ _ h
  cases h
  rfl

theorem Payload.readReference (tag reference : Byte) : Payload.Statement (.readReference tag reference) := by
  intro _ _ _ _ h
  cases h
  rfl

theorem Payload.freezeChannel (tag channel value : Byte) : Payload.Statement (.freezeChannel tag channel value) := by
  intro _ _ _ _ h
  cases h
  rfl

theorem Payload.writeCoeff (tag path : Byte) (index : Half) (taps : Slot) : Payload.Statement (.writeCoeff tag path index taps) := by
  intro _ _ _ w h
  cases h
  have : taps.length = 64 := by simpa [Instr.wellFormed, slotWellFormed, Config.blockSamples] using w
  simp [Machine.commandLength, Machine.halfBytes, this]

theorem Payload.writeComparison (tag window promoteMargin promoteCount divergenceMargin divergenceCount reseedLimit threshold : Byte) : Payload.Statement (.writeComparison tag window promoteMargin promoteCount divergenceMargin divergenceCount reseedLimit threshold) := by
  intro _ _ _ _ h
  cases h
  rfl

theorem Payload.promoteChannel (tag channel : Byte) : Payload.Statement (.promoteChannel tag channel) := by
  intro _ _ _ _ h
  cases h
  rfl

theorem Payload.readChannelStats (tag channel : Byte) : Payload.Statement (.readChannelStats tag channel) := by
  intro _ _ _ _ h
  cases h
  rfl

theorem Payload.readSeedQueue (tag start count : Byte) : Payload.Statement (.readSeedQueue tag start count) := by
  intro _ _ _ _ h
  cases h
  rfl

theorem Payload.writeDetector (tag channel nearThreshold echoMargin enterDebounce nearHangover : Byte) : Payload.Statement (.writeDetector tag channel nearThreshold echoMargin enterDebounce nearHangover) := by
  intro _ _ _ _ h
  cases h
  rfl

theorem Payload.writeDecision (tag bank entry control mask want target : Byte) : Payload.Statement (.writeDecision tag bank entry control mask want target) := by
  intro _ _ _ _ h
  cases h
  rfl

theorem Payload.readDecision (tag bank entry : Byte) : Payload.Statement (.readDecision tag bank entry) := by
  intro _ _ _ _ h
  cases h
  rfl

theorem Payload.selectDecisionBank (tag bank : Byte) : Payload.Statement (.selectDecisionBank tag bank) := by
  intro _ _ _ _ h
  cases h
  rfl

theorem Payload.writeSuppressor (tag channel attack release offset : Byte) : Payload.Statement (.writeSuppressor tag channel attack release offset) := by
  intro _ _ _ _ h
  cases h
  rfl

theorem Payload.status (tag : Byte) : Payload.Statement (.status tag) := by
  intro _ _ _ _ h
  cases h
  rfl

theorem Payload.readPath (tag path set : Byte) (first count : Half) : Payload.Statement (.readPath tag path set first count) := by
  intro _ _ _ _ h
  cases h
  rfl

theorem Payload.abortRead (tag : Byte) : Payload.Statement (.abortRead tag) := by
  intro _ _ _ _ h
  cases h
  rfl

theorem Payload.setNotice (tag fault state path : Byte) : Payload.Statement (.setNotice tag fault state path) := by
  intro _ _ _ _ h
  cases h
  rfl

theorem Payload.setMode (tag mode : Byte) : Payload.Statement (.setMode tag mode) := by
  intro _ _ _ _ h
  cases h
  rfl

theorem Payload.readFaults (tag : Byte) : Payload.Statement (.readFaults tag) := by
  intro _ _ _ _ h
  cases h
  rfl

theorem Payload.clearFaults (tag : Byte) (classes : Half) : Payload.Statement (.clearFaults tag classes) := by
  intro _ _ _ _ h
  cases h
  rfl

theorem Payload.writeFaultPolicy (tag : Byte) (masks severities : Half) : Payload.Statement (.writeFaultPolicy tag masks severities) := by
  intro _ _ _ _ h
  cases h
  rfl

theorem Payload.setSafeAction (tag action : Byte) : Payload.Statement (.setSafeAction tag action) := by
  intro _ _ _ _ h
  cases h
  rfl

theorem Payload.resetFull (tag : Byte) : Payload.Statement (.resetFull tag) := by
  intro _ _ _ _ h
  cases h
  rfl

theorem Payload.resetAdaptation (tag : Byte) : Payload.Statement (.resetAdaptation tag) := by
  intro _ _ _ _ h
  cases h
  rfl

end Sys2Proof.Laws
end

