-- ==== Sys2Proof/Laws/Periods.lean ====
section
/-! SUPPORT. What an outbound block period can do before its command is taken, said once: the mark, the lock, the core-silence count, the taps and the silent appends. -/

namespace Sys2Proof.Machine

/-- What the outbound side of a block period leaves alone. -/
structure PeriodWork (s t : State) : Prop where
  channels : t.channels = s.channels
  paths : t.paths = s.paths
  pool : t.pool = s.pool
  comparator : t.comparator = s.comparator
  queue : t.seed.queue = s.seed.queue
  decision : t.decision = s.decision
  pending : t.pending = s.pending
  replies : t.control.replies = s.control.replies
  forward : t.control.forward = s.control.forward
  streamer : t.control.streamer = s.control.streamer
  coreLine : t.ports.coreLine = s.ports.coreLine
  inTxSeq : t.ports.inTxSeq = s.ports.inTxSeq
  roomSilence : t.ports.roomSilence = s.ports.roomSilence
  pinHeld : t.ports.pinHeld = s.ports.pinHeld
  bounded : s.control.notices.length ≤ 8 → t.control.notices.length ≤ 8
  statuses : ∀ c, s.unit.isSet c = true → t.unit.isSet c = true
  settings : t.references.map (fun r => (r.slot, r.bulk, r.depth, r.threshold, r.hangover, r.parityBad)) =
    s.references.map fun r => (r.slot, r.bulk, r.depth, r.threshold, r.hangover, r.parityBad)

theorem PeriodWork.refl (s : State) : PeriodWork s s := by constructor <;> simp

theorem PeriodWork.trans {s t u : State} (h : PeriodWork s t) (k : PeriodWork t u) : PeriodWork s u where
  channels := k.channels.trans h.channels
  paths := k.paths.trans h.paths
  pool := k.pool.trans h.pool
  comparator := k.comparator.trans h.comparator
  queue := k.queue.trans h.queue
  decision := k.decision.trans h.decision
  pending := k.pending.trans h.pending
  replies := k.replies.trans h.replies
  forward := k.forward.trans h.forward
  streamer := k.streamer.trans h.streamer
  coreLine := k.coreLine.trans h.coreLine
  inTxSeq := k.inTxSeq.trans h.inTxSeq
  roomSilence := k.roomSilence.trans h.roomSilence
  pinHeld := k.pinHeld.trans h.pinHeld
  bounded := fun b => k.bounded (h.bounded b)
  statuses := fun c b => k.statuses c (h.statuses c b)
  settings := k.settings.trans h.settings

theorem Reports.periodWork {s t : State} (h : Reports s t) : PeriodWork s t where
  channels := h.channels
  paths := h.paths
  pool := h.pool
  comparator := h.comparator
  queue := by rw [h.seed]
  decision := h.decision
  pending := h.pending
  replies := h.replies
  forward := h.forward
  streamer := h.streamer
  coreLine := by rw [h.ports]
  inTxSeq := by rw [h.ports]
  roomSilence := by rw [h.ports]
  pinHeld := by rw [h.ports]
  bounded := h.bounded
  statuses := h.statuses
  settings := by rw [h.references]

/-- The ports replaced, but for the fields that the outbound side leaves alone. -/
theorem State.setPorts_periodWork (s : State) (p : Ports) (a : p.coreLine = s.ports.coreLine) (b : p.inTxSeq = s.ports.inTxSeq)
    (c : p.roomSilence = s.ports.roomSilence) (d : p.pinHeld = s.ports.pinHeld) : PeriodWork s (s.setPorts p) := by
  constructor <;> simp [a, b, c, d]

theorem State.markPeriod_periodWork (s : State) : PeriodWork s s.markPeriod := by
  unfold State.markPeriod
  simp only
  split <;> constructor <;> simp

/-- The mark of a period, field by field. -/
theorem State.markPeriod_eq (s : State) : s.markPeriod = Safety.periodMarked s := by
  unfold State.markPeriod Safety.periodMarked
  simp only
  cases h : s.ports.roomEarly <;> simp [State.setSeed, State.setPorts, h]

/-- What a good arrival has done before it handles its block. -/
theorem State.openPeriod_eq (s : State) (stepFirst : Bool) : s.openPeriod stepFirst = Safety.periodOpened s stepFirst := by
  rw [State.openPeriod, Safety.periodOpened, State.markPeriod_eq]

theorem State.leaveOffline_reports (s : State) : Reports s s.leaveOffline := s.enterState_reports _ _ _

/-- Every transition of the lock (R139). -/
theorem State.lockSees_periodWork (s : State) (x : LockSight) : PeriodWork s (s.lockSees x) := by
  have put : ∀ p : Ports, p.coreLine = s.ports.coreLine → p.inTxSeq = s.ports.inTxSeq → p.roomSilence = s.ports.roomSilence →
      p.pinHeld = s.ports.pinHeld → PeriodWork s (s.setPorts p) := fun p => s.setPorts_periodWork p
  have reached : PeriodWork s s.lockReached := by
    unfold State.lockReached
    simp only
    split
    · refine PeriodWork.trans ?_ (State.leaveOffline_reports _).periodWork
      exact put _ rfl rfl rfl rfl
    · exact put _ rfl rfl rfl rfl
  have lost : PeriodWork s s.lockLost := by
    unfold State.lockLost
    simp only
    split
    · refine PeriodWork.trans ?_ (State.raise_reports _ _ _ _).periodWork
      exact put _ rfl rfl rfl rfl
    · exact put _ rfl rfl rfl rfl
  have rises : PeriodWork s s.lossRises := by
    unfold State.lossRises
    split
    · exact lost
    · exact put _ rfl rfl rfl rfl
  unfold State.lockSees
  split
  · exact put _ rfl rfl rfl rfl
  · exact put _ rfl rfl rfl rfl
  · exact PeriodWork.refl s
  · unfold State.acquisitionRises
    split
    · exact reached
    · exact put _ rfl rfl rfl rfl
  · exact put _ rfl rfl rfl rfl
  · exact put _ rfl rfl rfl rfl
  · exact put _ rfl rfl rfl rfl
  · exact rises
  · exact rises

theorem State.coreSilenceRises_periodWork (s : State) : PeriodWork s s.coreSilenceRises := by
  unfold State.coreSilenceRises
  simp only
  split
  · split
    · refine PeriodWork.trans ?_ (State.raise_reports _ _ _ _).periodWork
      exact s.setPorts_periodWork _ rfl rfl rfl rfl
    · exact s.setPorts_periodWork _ rfl rfl rfl rfl
  · exact PeriodWork.refl s

theorem State.judgeHeader_periodWork (s : State) (seq : Byte) : PeriodWork s (s.judgeHeader seq) :=
  (State.lockSees_periodWork _ _).trans (State.setPorts_periodWork _ _ rfl rfl rfl rfl)

theorem State.lostPeriod_periodWork (s : State) : PeriodWork s s.lostPeriod :=
  (s.markPeriod_periodWork.trans (State.lockSees_periodWork _ _)).trans (State.coreSilenceRises_periodWork _)

theorem State.putModulator_periodWork (s : State) (r : Nat) (m : Modulator) : PeriodWork s (s.putModulator r m) := by constructor <;> simp

theorem State.appendTo_periodWork (s : State) (r : Nat) (b : Slot) : PeriodWork s (s.appendTo r b) := by
  have h : ∀ x : Bool, (((s.reference r).tested x).slot, ((s.reference r).tested x).bulk, ((s.reference r).tested x).depth,
      ((s.reference r).tested x).threshold, ((s.reference r).tested x).hangover, ((s.reference r).tested x).parityBad) =
      ((s.reference r).slot, (s.reference r).bulk, (s.reference r).depth, (s.reference r).threshold, (s.reference r).hangover,
        (s.reference r).parityBad) := by
    intro x
    unfold Reference.tested
    split
    · rfl
    · split <;> rfl
  constructor <;> simp [State.appendTo]
  have := List.map_set_same (fun r : Reference => (r.slot, r.bulk, r.depth, r.threshold, r.hangover, r.parityBad)) s.references r
    Reference.initial ((s.reference r).tested (reachesThreshold b (s.reference r).threshold)) (h _)
  simpa using this

theorem State.appendUntrusted_periodWork (s : State) (r : Nat) : PeriodWork s (s.appendUntrusted r) :=
  ((State.raise_reports _ _ _ _).periodWork.trans (State.putModulator_periodWork _ _ _)).trans (State.appendTo_periodWork _ _ _)

/-- A reference's settings are as they were. -/
theorem PeriodWork.reference {s t : State} (h : PeriodWork s t) (r : Nat) :
    ((t.reference r).slot, (t.reference r).bulk, (t.reference r).depth, (t.reference r).threshold, (t.reference r).hangover,
      (t.reference r).parityBad) =
      ((s.reference r).slot, (s.reference r).bulk, (s.reference r).depth, (s.reference r).threshold, (s.reference r).hangover,
        (s.reference r).parityBad) := by
  have e := congrArg (fun l => l[r]?) h.settings
  simp only [List.getElem?_map] at e
  simp only [State.reference, List.getD_eq_getElem?_getD]
  revert e
  cases t.references[r]? <;> cases s.references[r]? <;> simp

/-- One reference's tap leaves alone what the outbound side leaves alone, and every slot but the one the reference names (R41). -/
theorem State.tapReference_spec (op : OpState) (slots : List Slot) (s : State) (r : Nat) :
    PeriodWork s (State.tapReference op (slots, s) r).2 ∧
      Safety.SameElsewhere (fun k => (s.reference r).slot = some k) slots (State.tapReference op (slots, s) r).1 := by
  unfold State.tapReference
  simp only
  split
  · exact ⟨s.appendUntrusted_periodWork r, rfl, fun _ _ => rfl⟩
  · split
    · exact ⟨s.appendTo_periodWork r _, rfl, fun _ _ => rfl⟩
    · next k hk =>
      split
      · refine ⟨(s.putModulator_periodWork r _).trans (State.appendTo_periodWork _ r _), by simp, fun j hj => ?_⟩
        have hne : k ≠ j := fun e => hj (e ▸ hk)
        simp [List.getElem?_set_ne hne]
      · exact ⟨s.appendTo_periodWork r _, rfl, fun _ _ => rfl⟩

/-- The taps of an outbound block: what they leave alone, and every slot that no reference names (R41). -/
theorem State.tapAll_spec (s : State) (slots : List Slot) :
    PeriodWork s (s.tapAll slots).2 ∧
      Safety.SameElsewhere (fun k => ∃ r < 8, (s.reference r).slot = some k) slots (s.tapAll slots).1 := by
  unfold State.tapAll Config.numReferences
  have h : ∀ (l : List Nat) (slots : List Slot) (t : State), PeriodWork s t → (∀ r ∈ l, r < 8) →
      PeriodWork s (l.foldl (State.tapReference s.unit.opState) (slots, t)).2 ∧
        Safety.SameElsewhere (fun k => ∃ r < 8, (s.reference r).slot = some k) slots
          (l.foldl (State.tapReference s.unit.opState) (slots, t)).1 := by
    intro l
    induction l with
    | nil => exact fun slots t w _ => ⟨w, rfl, fun _ _ => rfl⟩
    | cons r rest ih =>
      intro slots t w hl
      obtain ⟨w1, l1, e1⟩ := State.tapReference_spec s.unit.opState slots t r
      obtain ⟨w2, l2, e2⟩ := ih (State.tapReference s.unit.opState (slots, t) r).1 (State.tapReference s.unit.opState (slots, t) r).2
        (w.trans w1) fun j hj => hl j (by simp [hj])
      refine ⟨w2, l2.trans l1, fun k hk => (e2 k hk).trans (e1 k fun hc => hk ⟨r, hl r (by simp), ?_⟩)⟩
      have := congrArg Prod.fst (w.reference r)
      simp only at this
      rw [← this]
      exact hc
  exact h _ slots s (PeriodWork.refl s) (by simp)

theorem State.silentAppend_periodWork (op : OpState) (s : State) (r : Nat) : PeriodWork s (State.silentAppend op s r) := by
  unfold State.silentAppend
  simp only
  split
  · exact s.appendUntrusted_periodWork r
  · split
    · exact (s.putModulator_periodWork r _).trans (State.appendTo_periodWork _ r _)
    · exact s.appendTo_periodWork r _

theorem State.silentAppendAll_periodWork (s : State) : PeriodWork s s.silentAppendAll := by
  unfold State.silentAppendAll
  generalize List.range Config.numReferences = l
  have h : ∀ (l : List Nat) (t : State), PeriodWork s t → PeriodWork s (l.foldl (State.silentAppend s.unit.opState) t) := by
    intro l
    induction l with
    | nil => exact fun _ w => w
    | cons r rest ih => exact fun t w => ih _ (w.trans (State.silentAppend_periodWork _ t r))
  exact h l s (PeriodWork.refl s)

end Sys2Proof.Machine
end

