-- ==== Sys2Proof/Tests/Slice0.lean ====
section
/-! SUPPORT. Tests: shapes the well-formedness check refuses, the spec's worked sequences and packets, and for each statement with hypotheses a concrete state and operands that meet them, at the boundary values of its clauses. -/

open Sys2Proof Sys2Proof.Machine Sys2Proof.Safety

namespace Sys2Proof.Tests

set_option Elab.async false

/-! ### Shapes -/

/-- `n` silent slots. -/
def quiet (n : Nat) : List Slot := List.replicate n silence

theorem test_wf_good_shapes :
    Instr.wellFormed (.outboundGoodArrival 5 0x80 (quiet 16) (windowOf none)) = true ∧
      Instr.wellFormed (.inboundGoodArrival 5 0 (quiet 32) (windowOf none)) = true ∧ Instr.wellFormed (.outboundBadArrival (quiet 16)) = true ∧
      Instr.wellFormed (.inboundBadArrival (quiet 32)) = true ∧ Instr.wellFormed (.windowEnd 23 0 0 energyBound) = true ∧
      Instr.wellFormed (.writeCoeff 1 2 3 silence) = true := by decide +kernel
theorem test_wf_refuses_short_outbound_block : Instr.wellFormed (.outboundGoodArrival 5 0 (quiet 15) (windowOf none)) = false := by
  decide +kernel
theorem test_wf_refuses_short_outbound_slot :
    Instr.wellFormed (.outboundGoodArrival 5 0 ([0] :: quiet 15) (windowOf none)) = false := by decide +kernel
theorem test_wf_refuses_short_outbound_window :
    Instr.wellFormed (.outboundGoodArrival 5 0 (quiet 16) (List.replicate 211 0)) = false := by decide +kernel
theorem test_wf_refuses_bad_outbound_of_32_slots : Instr.wellFormed (.outboundBadArrival (quiet 32)) = false := by decide +kernel
theorem test_wf_refuses_inbound_of_16_slots : Instr.wellFormed (.inboundGoodArrival 5 0 (quiet 16) (windowOf none)) = false := by
  decide +kernel
theorem test_wf_refuses_long_inbound_window : Instr.wellFormed (.inboundGoodArrival 5 0 (quiet 32) (List.replicate 213 0)) = false := by
  decide +kernel
theorem test_wf_refuses_bad_inbound_of_31_slots : Instr.wellFormed (.inboundBadArrival (quiet 31)) = false := by decide +kernel
theorem test_wf_good_interludes :
    Instr.wellFormed (.inboundBadArrival (quiet 32)
        [(0, .seedStep), (23, .timerExpiry), (5, .command 0x53 1 [1]), (5, .transmit), (6, .outboundGood 5 0 (quiet 16) (windowOf none)),
          (7, .outboundBad (quiet 16))]) = true ∧
      Instr.wellFormed (.roomSilence [(1, .seedStep)]) = true ∧ Instr.wellFormed (.roomSilenceAdvance []) = true := by decide +kernel
theorem test_wf_refuses_interlude_before_channel_24 :
    Instr.wellFormed (.inboundGoodArrival 5 0 (quiet 32) (windowOf none) [(24, .seedStep)]) = false ∧
      Instr.wellFormed (.inboundBadArrival (quiet 32) [(24, .seedStep)]) = false ∧ Instr.wellFormed (.roomSilence [(24, .seedStep)]) = false ∧
      Instr.wellFormed (.roomSilenceAdvance [(24, .seedStep)]) = false := by decide +kernel
theorem test_wf_refuses_misshapen_interludes :
    Interlude.wellFormed (.command 0x53 1 (List.replicate 201 0)) = false ∧
      Interlude.wellFormed (.outboundGood 5 0 (quiet 15) (windowOf none)) = false ∧
      Interlude.wellFormed (.outboundGood 5 0 (quiet 16) (List.replicate 211 0)) = false ∧
      Interlude.wellFormed (.outboundBad (quiet 32)) = false := by decide +kernel
theorem test_wf_refuses_window_end_of_channel_24 : Instr.wellFormed (.windowEnd 24 0 0 0) = false := by decide
theorem test_wf_refuses_energies_beyond_full_scale :
    Instr.wellFormed (.windowEnd 0 (energyBound + 1) 0 0) = false ∧ Instr.wellFormed (.windowEnd 0 0 (energyBound + 1) 0) = false ∧
      Instr.wellFormed (.windowEnd 0 0 0 (energyBound + 1)) = false := by decide
theorem test_wf_refuses_clip_of_channel_24 : Instr.wellFormed (.captureClip 24) = false := by decide
theorem test_wf_refuses_hangover_of_channel_24 : Instr.wellFormed (.nearHangoverExpiry 24) = false := by decide
theorem test_wf_refuses_hangover_of_reference_8 : Instr.wellFormed (.activityHangoverExpiry 8) = false := by decide
theorem test_wf_refuses_63_taps : Instr.wellFormed (.writeCoeff 1 2 3 (silence.drop 1)) = false := by decide +kernel

/-! ### Small states -/

/-- The state a row leads to. -/
def after (i : Instr) (s : State) : State :=
  match exec i s with
  | .next t => t
  | .fault f => nomatch f
  | .refused _ => s

/-- A part in RUN and LOCKED: reference 0 on outbound slot 0, dithered and ACTIVE, channel 0 in CANCEL on inbound slot 0 with path 0, READY on
partitions 0 and 1. -/
def work : State :=
  { State.reset with
    ports := { Ports.initial with lock := .locked, acquire := 16, armed := true, timerRunning := true, lastSeq := 10 }
    references := { Reference.initial with slot := some 0, depth := 1, active := true } :: List.replicate 7 Reference.initial
    channels := { Channel.initial 0 with slot := some 0, mode := .cancel, paths := [0] } :: ((List.range 24).drop 1).map Channel.initial
    paths :=
      { state := .ready, owner := some 0, reference := some 0, chain := [0, 1], live := .a, step := 6, readHeld := false } ::
        List.replicate 63 PathRecord.unused
    pool := { free := List.range' 2 6142, cells := [] }
    unit := { FaultUnit.initial with opState := .run } }

/-- `work` with other contents of some blocks. -/
def workPorts (f : Ports → Ports) : State := { work with ports := f work.ports }
def workChannel (f : Channel → Channel) : State := work.putChannel 0 (f (work.channel 0))
def workPath (f : PathRecord → PathRecord) : State := work.putPath 0 (f (work.path 0))
/-- `work` with reference 0 read with a parity mismatch. -/
def upsetWork : State := work.putReference 0 { work.reference 0 with parityBad := true }
def workControl (f : Control → Control) : State := { work with control := f work.control }
def workUnit (f : FaultUnit → FaultUnit) : State := { work with unit := f work.unit }

def reply0 : Reply := { tag := 1, code := 0x70, outcome := .done, payload := [] }
def readback0 : Readback := { tag := 9, path := 0, set := .live, next := 0, remaining := 2 }
def seedWork (q : List SeedRequest) : State := { work with seed := { queue := q, granted := true } }
def clear0 : SeedRequest := { path := 0, kind := .clear, first := 0, count := 2, done := 0 }

theorem test_work_is_lawful :
    TablesSized work ∧ QueuesBounded work ∧ UnusedIsBlank work ∧ Accepting work ∧ Accepting State.reset ∧ TablesSized State.reset := by
  unfold TablesSized QueuesBounded UnusedIsBlank Accepting
  decide +kernel

/-! ### Packets and headers written out from spec/11 -/

theorem test_status_packet_at_distance_0 :
    readCommand (windowOf (some [0x10, 0x11, 0x70, 0x00, 0xE3, 0x6D])) =
      some { distance := 0, tag := 0x11, code := 0x70, payload := [], packet := [0x10, 0x11, 0x70, 0x00, 0xE3, 0x6D] } := by decide +kernel
theorem test_set_mode_packet_to_every_part :
    (examine 0x40 (windowOf (some [0x1F, 0x2A, 0x80, 0x01, 0x02, 0x07, 0x63]))).consumed.map (fun c => (c.distance, c.code, c.payload)) =
      some (15, 0x80, [0x02]) := by decide +kernel
theorem test_distance_8_is_bad :
    examine 0x40 (windowOf (some [0x18, 0x11, 0x70, 0x00, 0x66, 0xAE])) = { passed := none, consumed := none, bad := true } := by decide +kernel
theorem test_header_of_an_outbound_block :
    receiveOutbound ([0xA5, 0x3C, 0x96, 0x05, 0x40, 0x06, 0x4C] ++ List.replicate 3072 0 ++ windowOf none) =
      some (.outboundGoodArrival 5 0x40 (quiet 16) (windowOf none)) := by decide +kernel
theorem test_damaged_header_of_an_outbound_block :
    receiveOutbound ([0xA5, 0x3C, 0x96, 0x05, 0x41, 0x06, 0x4C] ++ List.replicate 3072 0 ++ windowOf none) =
      some (.outboundBadArrival (quiet 16)) := by decide +kernel
theorem test_reply_packet_bytes :
    withCrc ({ tag := 0x11, code := 0x53, outcome := .done, payload := [] } : Reply).body = [0x20, 0x11, 0x53, 0, 0, 0x73, 0x35] := by
  decide +kernel
theorem test_state_notice_bytes : withCrc (Notice.state .run .locked .power).body = [0x40, 2, 3, 1, 0, 0, 0x8C, 0x6F] := by decide +kernel
theorem test_bits_of_the_sync_pattern :
    lineBits syncBytes =
      [true, false, true, false, false, true, false, true, false, false, true, true, true, true, false, false,
        true, false, false, true, false, true, true, false] := by decide
theorem test_outbound_block_on_the_line :
    receiveOutboundLine (({ seq := 5, filler := false, slots := quiet 16, packet := some [0x10, 0x11, 0x70, 0x00, 0xE3, 0x6D] } : LinkBlock).line
        ++ [false, true]) =
      some (.outboundGoodArrival 5 0x40 (quiet 16) (windowOf (some [0x10, 0x11, 0x70, 0x00, 0xE3, 0x6D]))) := by decide +kernel
theorem test_no_word_spells_a_row : decodeTableWord 8 0 = none := rfl

/-! ### Worked sequences of the spec -/

/-- A reset part with references 0 to 2 on slots 0 to 2, each with a bulk delay of 3 (section 1.10). -/
def fresh : State :=
  { State.reset with
    references := [0, 1, 2].map (fun k => { Reference.initial with slot := some k, bulk := 3 }) ++ List.replicate 5 Reference.initial }

/-- The first command of section 1.10. -/
def first : State := after (.allocatePath 1 0 0 300 6) fresh

theorem test_allocation_of_section_1_10 :
    (first.path 0).chain = List.range' 0 300 ∧ first.pool.free.head? = some 300 ∧ first.pool.freeCount = 5844 ∧
      (first.channel 0).paths = [0] ∧ first.seed.queue = [{ path := 0, kind := .clear, first := 0, count := 300, done := 0 }] ∧
      first.control.replies.map Reply.payload = [[0]] := by decide +kernel

theorem test_release_of_section_1_10 :
    (after (.releasePath 3 0) first).pool.free.head? = some 300 ∧ (after (.releasePath 3 0) first).pool.free.getLast? = some 299 ∧
      (after (.releasePath 3 0) first).path 0 = PathRecord.unused ∧ (after (.releasePath 3 0) first).seed.queue = [] := by decide +kernel

theorem test_seed_step_spends_48 :
    ((after .seedStep { work with
        paths := { work.path 0 with state := .seeding, chain := List.range' 0 60 } :: List.replicate 63 PathRecord.unused
        seed := { queue := [{ clear0 with count := 60 }], granted := true } }).seed.queue.map SeedRequest.done) = [48] := by decide +kernel

theorem test_gain_of_section_7_7 :
    ({ SuppressorState.initial 11 with gain := -30 } : SuppressorState).movedGain 18 = -36 ∧
      ({ SuppressorState.initial 11 with gain := -36 } : SuppressorState).movedGain 6 = -35 ∧
      floorAfter (-320) (-315) = -319 ∧ floorAfter (-319) (-320) = -320 ∧ floorAfter (-319) (-318) = -318 := by decide

theorem test_linear_gains : linearGain 0 = 8388608 ∧ linearGain (-18) = 2976390 ∧ linearGain (-40) = 838861 := by decide +kernel

theorem test_detector_of_section_6_9 :
    let d : DetectorState := { DetectorState.initial with nearHangover := 4, debounce := 2 }
    (d.update true).nearActive = true ∧ (d.update true).hangover = 4 ∧ ((d.update true).update false).hangover = 3 ∧
      ((((d.update true).update false).update false).update false).nearActive = true ∧
      (((((d.update true).update false).update false).update false).update false).nearActive = false := by decide

theorem test_action_of_section_6_9 :
    (matchEntries { f := true, n := false, d := false, c := false, b := true, s := false, u := false } 0 State.reset.decision.bank0).1 =
        { adapt := true, stepScale := 0, target := 18, fill := true } ∧
      (matchEntries { f := true, n := true, d := true, c := false, b := true, s := false, u := false } 0 State.reset.decision.bank0).1 =
        { adapt := false, stepScale := 0, target := 6, fill := false } := by decide

theorem test_timer_does_not_run_before_the_first_header : exec .blockIntervalTimerExpiry State.reset = .next State.reset := rfl
theorem test_empty_queue_idles : step State.reset = .next State.reset := rfl

/-! ### Witnesses: resets, arrivals and packets -/

theorem test_witness_StepTakesFrontRow : State.reset.pending = [] := rfl
theorem test_witness_ResetPinEffect :
    (workPorts fun p => { p with pinHeld := true }).ports.pinHeld = true ∧ OverThePorts (.status 0) ∧ OverThePorts .inboundBlockTransmit :=
  ⟨rfl, .inl rfl, .inr (.inr (.inl rfl))⟩
theorem test_witness_ResetCommandEffects : Accepting work ∧ UnusedIsBlank work := ⟨test_work_is_lawful.2.2.2.1, test_work_is_lawful.2.2.1⟩
theorem test_witness_GoodArrivalPassesBlock :
    work.ports.pinHeld = false ∧ (examine 0 (windowOf none)).consumed = none ∧ (examine 0x40 (windowOf none)).consumed = none ∧
      (examine 0x40 (windowOf none)).bad = true := by decide +kernel
theorem test_witness_UnditheredArrivalTapsExactly :
    TablesSized (workUnit fun u => { u with opState := .bypass }) ∧ (workUnit fun u => { u with opState := .bypass }).unit.opState = .bypass ∧
      ((workUnit fun u => { u with opState := .bypass }).lockSees .gap).unit.opState = .bypass ∧
      (State.reset.lockSees .gap).unit.opState = .offline ∧
      (({ State.reset with ports := { Ports.initial with lock := .acquiring, acquire := 14 } } : State).lockSees .inSequence).unit.opState =
        .offline ∧
      (work.reference 7).parityBad = false := by
  unfold TablesSized
  decide +kernel
theorem test_witness_UnditheredArrivalTapsExactly_opened :
    let v := workUnit fun u => { u with opState := .bypass }
    v.ports.pinHeld = false ∧ TablesSized (periodOpened v false) ∧ TablesSized (periodOpened v true) ∧
      ((periodOpened v true).lockSees .gap).unit.opState = .bypass ∧ ((periodOpened v false).lockSees .gap).unit.opState = .bypass := by
  unfold TablesSized
  decide +kernel
theorem test_witness_UnditheredArrivalTapsExactly_lock :
    let s := fun (u : FaultUnit) => ({ workUnit (fun _ => u) with ports := { work.ports with loss := 2 } } : State)
    (s { FaultUnit.initial with opState := .bypass }).ports.lock = .locked ∧
      ((s { FaultUnit.initial with opState := .bypass }).lockSees .gap).unit.opState = .safe ∧
      (s { FaultUnit.initial with opState := .bypass, masks := 4 }).unit.masked .clockUnlock = true ∧
      (s { FaultUnit.initial with opState := .bypass, status := 4 }).unit.isSet .clockUnlock = true ∧
      (s { FaultUnit.initial with opState := .bypass, severities := 0 }).unit.grave .clockUnlock = false := by decide
theorem test_witness_DitherModulator :
    TablesSized work ∧ (work.reference 0).parityBad = false ∧ (work.reference 0).slot = some 0 ∧ (work.reference 0).depth ≠ 0 ∧
      0 < (allPass 0 0 0 [1]).length ∧ (work.reference 1).slot = none ∧ (State.reset.reference 0).depth = 0 ∧
      ({ Reference.initial with parityBad := true } : Reference).parityBad = true :=
  ⟨test_work_is_lawful.1, rfl, rfl, by decide, by decide, rfl, rfl, rfl⟩
theorem test_witness_DitherCoefficientIsNearest :
    ditherCoefficient 1 0 = 0 ∧ ditherCoefficient 3 469 = 2247720 ∧ ditherCoefficient 3 1406 = -2247720 := by decide +kernel
theorem test_witness_CommandPacketsHandled :
    (0x40 : Byte).getLsbD 6 = true ∧ (0 : Byte).getLsbD 6 = false ∧ readCommand (windowOf none) = none ∧
      (readCommand (windowOf (some (commandPacketBytes 0 1 0x70 [])))).map CommandPacket.distance = some 0 ∧ work.ports.pinHeld = false ∧
      (readCommand (windowOf (some (commandPacketBytes 1 1 0x70 [])))).map CommandPacket.distance = some 1 ∧
      (readCommand (windowOf (some (commandPacketBytes 7 1 0x70 [])))).map CommandPacket.distance = some 7 ∧
      (readCommand (windowOf (some (commandPacketBytes 15 1 0x70 [])))).map CommandPacket.distance = some 15 ∧
      (examine 0x40 (windowOf (some (commandPacketBytes 0 1 0x70 [])))).consumed.isSome = true := by decide +kernel
theorem test_witness_CommandPacketRoundTrip :
    (readCommand (windowOf (some (commandPacketBytes 7 1 0x21 (List.replicate 20 5))))).map (fun c => c.payload.length) = some 20 ∧
      (List.replicate 200 (5 : Byte)).length ≤ 200 ∧
      readCommand (windowOf (some (commandPacketBytes 14 1 0x70 []))) = none ∧ (quiet 16).length = 16 ∧ (quiet 32).length = 32 ∧
      (∀ x ∈ quiet 32, x.length = 64) ∧ (List.replicate 210 (1 : Byte)).length ≤ 210 := by decide +kernel
theorem test_witness_CommandPacketRoundTrip_judged :
    let header := fun (sync flags : Byte) => [sync, 0x3C, 0x96, 0x05, flags, 0x06, 0x4C]
    let check := fun (bytes : List Byte) => [(crc (bytes.take 5)).extractLsb' 8 8, (crc (bytes.take 5)).extractLsb' 0 8]
    (header 0xA5 0x40).take 3 = [0xA5, 0x3C, 0x96] ∧ ((header 0xA5 0x40).drop 5).take 2 = check (header 0xA5 0x40) ∧
      ((header 0xA5 0x41).drop 5).take 2 ≠ check (header 0xA5 0x41) ∧ (header 0xA4 0x40).take 3 ≠ [0xA5, 0x3C, 0x96] ∧
      receiveOutbound (header 0xA4 0x40) = none ∧ receiveInbound (header 0xA4 0x40) = none := by decide +kernel
theorem test_witness_CommandPacketRoundTrip_lengths :
    (List.replicate 3291 (0 : Byte)).length = 3291 ∧ (List.replicate 6363 (0 : Byte)).length = 6363 ∧
      192 * 16 ≤ (List.replicate 3291 (0 : Byte)).length :=
  ⟨List.length_replicate, List.length_replicate, by rw [List.length_replicate]; decide⟩
theorem test_command_windows_good_and_bad :
    let packet := commandPacketBytes 0 1 0x70 [5]
    let damaged := fun (k : Nat) (b : Byte) => readCommand (bytes2 7 ++ packet.set k b)
    (readCommand (bytes2 7 ++ packet ++ [9, 9])).map CommandPacket.payload = some [5] ∧ damaged 4 6 = none ∧ damaged 6 0 = none ∧
      readCommand (bytes2 8 ++ packet ++ [9, 9]) = none ∧ readCommand (bytes2 7 ++ withCrc [0x20, 1, 0x70, 1, 5]) = none ∧
      readCommand (bytes2 7 ++ withCrc [0x10, 1, 0x70, 2, 5]) = none ∧ readCommand (bytes2 7 ++ packet.take 6) = none := by
  decide +kernel
theorem test_witness_PacketTakesItsRow :
    Instr.wellFormed (.setStep 1 2 3) = true ∧ commandOf (.setStep 1 2 3) = some (0x04, 1, [2, 3]) ∧ commandLength 0x00 = none ∧
      commandLength 0x04 = some 2 ∧ ([] : List Byte).length ≠ 2 ∧ 1 < (2 : Byte).toNat := by decide
theorem test_witness_CommandRowsRoundTrip :
    Instr.wellFormed (.resetAdaptation 0xFF) = true ∧ commandOf (.resetAdaptation 0xFF) = some (0x85, 0xFF, [1]) ∧
      commandRow 0x85 0xFF [1] = some (.resetAdaptation 0xFF) := by decide
theorem test_witness_LostPeriodEffect :
    TablesSized work ∧ (∀ r < 8, (work.reference r).parityBad = false) ∧ work.ports.timerRunning = true ∧ TablesSized State.reset ∧
      State.reset.ports.timerRunning = false ∧ (workPorts fun p => { p with coreSilence := 47 }).ports.coreSilence = 47 ∧
      ((workPorts fun p => { p with coreSilence := 47 }).lockSees .lost).ports.armed = true ∧ (work.reference 0).slot ≠ none ∧
      (work.reference 0).depth ≠ 0 ∧ (work.reference 1).slot = none ∧ work.ports.pinHeld = false := by
  refine ⟨test_work_is_lawful.1, by decide, rfl, test_work_is_lawful.2.2.2.2.2, rfl, rfl, rfl, by decide, by decide, rfl, rfl⟩
theorem test_silent_append_pauses_the_modulator :
    let m := (State.silentAppend .run work 0).modulator 0
    (m.sweep, m.lastIn, m.lastOut) = ((work.modulator 0).sweep + 1, 0, 0) ∧
      (State.silentAppend .bypass work 0).modulators = work.modulators ∧
      (State.silentAppend .bypass (work.putReference 1 { work.reference 1 with parityBad := true }) 1).unit.isSet .tableParity = true := by
  decide +kernel

/-! ### Witnesses: lock, silence, raises, the inbound side -/

theorem test_witness_LockTable :
    State.reset.ports.lock = .unlocked ∧ (workPorts fun p => { p with lock := .acquiring, acquire := 14 }).ports.acquire + 1 < 16 ∧
      (workPorts fun p => { p with lock := .acquiring, acquire := 15 }).ports.acquire + 1 = 16 ∧ work.ports.lock = .locked ∧
      work.ports.loss + 1 < 3 ∧ 3 ≤ (workPorts fun p => { p with loss := 2 }).ports.loss + 1 ∧ work.ports.armed = true := by decide
/-- A part in OFFLINE one header away from the lock, with some fault statuses. -/
def almostLocked (status : BitVec 12) : State :=
  { State.reset with
    ports := { Ports.initial with lock := .acquiring, acquire := 15, timerRunning := true }, unit := { FaultUnit.initial with status := status } }
theorem test_witness_LockAcquiredEffect :
    (almostLocked 0).ports.lock = .acquiring ∧ (almostLocked 0).ports.acquire = 15 ∧ (almostLocked 0).unit.opState = .offline ∧
      (almostLocked 0).control.notices.length < 8 ∧ ¬GraveStands (almostLocked 0).unit ∧ GraveStands (almostLocked 4).unit ∧
      (workPorts fun p => { p with lock := .acquiring, acquire := 15 }).unit.opState ≠ .offline := by
  rw [← FaultUnit.graveSet_iff, ← FaultUnit.graveSet_iff]
  decide
theorem test_lock_acquired_enters_run_or_safe :
    (after .lockAcquired (almostLocked 0)).unit.opState = .run ∧ (after .lockAcquired (almostLocked 4)).unit.opState = .safe := by decide
theorem test_witness_LockLossAndCoreSilence :
    (workPorts fun p => { p with loss := 2 }).ports.lock = .locked ∧ (workPorts fun p => { p with loss := 2 }).ports.loss = 2 ∧
      (workPorts fun p => { p with coreSilence := 47 }).ports.timerRunning = true ∧
      (workPorts fun p => { p with coreSilence := 47 }).ports.coreSilence = 47 ∧ work.ports.armed = true ∧
      ({ Ports.initial with lock := .locked, loss := 2 } : Ports).armed = false := by decide
theorem test_witness_RaiseRule :
    work.control.notices.length ≤ 6 ∧ work.unit.masks.getLsbD FaultClass.captureClip.code = true ∧
      work.unit.masks.getLsbD FaultClass.clockUnlock.code = false ∧ work.unit.status.getLsbD FaultClass.clockUnlock.code = false ∧
      (workUnit fun u => { u with status := 4 }).unit.status.getLsbD FaultClass.clockUnlock.code = true ∧
      8 ≤ (workControl fun c => { c with notices := List.replicate 8 (.pathReady 0) }).control.notices.length ∧
      work.unit.masks.getLsbD 7 = false ∧ work.unit.status.getLsbD 7 = false ∧ (0x080 : BitVec 12).getLsbD 7 = true := by decide
theorem test_notice_into_a_full_queue :
    let full := workControl fun c => { c with notices := List.replicate 8 (.pathReady 0) }
    let grave := { full with unit := { full.unit with severities := 0x080 } }
    (full.postNotice (.pathReady 1) none).control.notices = full.control.notices ∧
      (full.postNotice (.pathReady 1) none).unit.isSet .noticeOverflow = true ∧ (full.postNotice (.pathReady 1) none).unit.multiple = false ∧
      (grave.postNotice (.pathReady 1) none).unit.opState = .safe ∧ (grave.postNotice (.pathReady 1) none).unit.multiple = true := by decide
theorem test_grave_raise_enters_safe :
    (work.raise .clockUnlock (.port .core) none).unit.opState = .safe ∧
      (work.raise .clockUnlock (.port .core) none).control.notices =
        [.fault .clockUnlock (.port .core), .state .safe (.fault .clockUnlock) .power] := by decide
theorem test_witness_RoomSilenceRows :
    let s := fun (silence : Nat) (origination skip : Bool) =>
      workPorts fun p => { p with roomMarks := 1, roomSilence := silence, origination := origination, skip := skip }
    0 < (s 46 false false).ports.roomMarks ∧ (s 46 false false).ports.roomSilence < 47 ∧ (s 46 false false).ports.origination = false ∧
      (s 48 true true).ports.roomSilence = 48 ∧ (s 48 true true).ports.skip = true ∧ (s 48 true false).ports.skip = false ∧
      (s 48 true false).ports.origination = true ∧ (s 47 false false).ports.roomSilence = 47 ∧ (s 47 false false).ports.armed = true ∧
      work.ports.roomMarks = 0 ∧ work.ports.timerRunning = true ∧ work.ports.roomEarly = false ∧ State.reset.ports.timerRunning = false := by
  decide
theorem test_room_silence_taken_ahead :
    (after (.roomSilenceAdvance []) work).ports.roomSilence = 1 ∧ (after (.roomSilenceAdvance []) work).ports.roomEarly = true ∧
      (after (.roomSilenceAdvance []) (after (.roomSilenceAdvance []) work)).ports.roomSilence = 1 := by decide
theorem test_witness_InboundGoodArrivalEffect :
    work.ports.pinHeld = false ∧ (0 : Byte).getLsbD 6 = false ∧ (0x40 : Byte).getLsbD 6 = true ∧
      readInbound (windowOf (some [0x20, 0x11, 0x53, 0, 0, 0x73, 0x35])) = some [0x21, 0x11, 0x53, 0, 0] ∧
      readInbound (windowOf none) = none ∧ work.control.forward.length < 8 ∧ ([0x11, 0x53, 0, 0] : List Byte).length ≤ 207 ∧
      8 ≤ (workControl fun c => { c with forward := List.replicate 8 [0x21] }).control.forward.length := by decide +kernel
theorem test_inbound_packets_good_and_bad :
    let heard := fun (body : List Byte) => readInbound (windowOf (some (withCrc body)))
    heard [0x46, 3, 1, 9] = some [0x47, 3, 1, 9] ∧ heard [0x47, 3, 1, 9] = none ∧ heard [0x40, 4, 1, 9] = none ∧
      heard [0x30, 1, 2, 0x82, 0, 5] = some [0x31, 1, 2, 0x82, 0, 5] ∧ heard [0x30, 1, 2, 0x83, 0, 5] = none ∧
      heard [0x30, 1, 2, 0x81, 0, 5] = none ∧ heard [0x10, 1, 2, 0] = none ∧ heard [0x20, 1, 2, 0, 1] = none := by decide +kernel
theorem test_witness_InboundBadArrivalEffect :
    work.ports.pinHeld = false ∧
      ((workUnit fun u => { u with opState := .bypass }).raise .headerCrc (.port .room) none).unit.opState = .bypass := by decide
theorem test_witness_InboundBlockProcessing :
    Accepting work ∧ (1 : Byte).toNat ≤ 1 ∧ Instr.wellFormed (.selectDecisionBank 9 1) = true ∧
      commandOf (.selectDecisionBank 9 1) = some (0x53, 9, [1]) := ⟨test_work_is_lawful.2.2.2.1, by decide, by decide, by decide⟩
/-- `work` with channel 1 in CANCEL on inbound slot 1 too, and an entry in bank 1 that fits every block and fills. -/
def twoBanks : State :=
  { work.putChannel 1 { work.channel 1 with slot := some 1, mode := .cancel } with
    decision := work.decision.putEntry 1 0 { DecisionEntry.blank with valid := true, target := 45 } }
theorem test_bank_switched_between_two_channel_blocks :
    let t := after (.inboundBadArrival (quiet 32) [(1, .command 0x53 9 [1])]) twoBanks
    (t.channel 0).suppressor.gain = 0 ∧ (t.channel 1).suppressor.gain = -6 ∧ t.decision.active = 1 := by decide +kernel
theorem test_append_between_two_channel_blocks :
    ((after (.roomSilence [(3, .timerExpiry)]) (workPorts fun p => { p with roomMarks := 1, roomSilence := 47 })).ports.lastSeq,
      (after (.roomSilence []) (workPorts fun p => { p with roomMarks := 1, roomSilence := 47 })).ports.lastSeq) = (11, 10) := by decide +kernel
theorem test_slot_moved_between_two_channel_blocks :
    let loud : Slot := List.replicate 64 0x7FFFFF#24
    let s := workChannel fun ch => { ch with mode := .mute }
    let t := after (.inboundGoodArrival 5 0 (loud :: quiet 31) (windowOf none)
      [(1, .command 0x10 9 [0, 0xFF, 2]), (1, .command 0x10 9 [1, 0, 0])]) s
    (t.channel 1).slot = some 0 ∧ (t.channel 1).clipRun = 1 ∧ (t.ports.coreLine.map fun b => b.slots.head?) = [some loud] := by decide +kernel
/-- `work` with a block waiting for the core port's line and some packets. -/
def sending (replies : List Reply) (notices : List Notice) (forward : List (List Byte)) (streamer : Streamer) : State :=
  { work with
    ports := { work.ports with coreLine := [{ seq := 3, filler := false, slots := [] }] }
    control := { work.control with replies := replies, notices := notices, forward := forward, streamer := streamer } }
theorem test_witness_ArbiterGrants :
    (sending [] [] [] .idle).ports.pinHeld = false ∧
      (sending [] [] [] .idle).ports.coreLine = { seq := 3, filler := false, slots := [] } :: [] ∧
      (sending [] [] [[0x21]] .idle).control.forward = [0x21] :: [] ∧ (sending [reply0] [] [[0x21]] .idle).control.replies = reply0 :: [] ∧
      (sending [] [.pathReady 0] [] .idle).control.notices = .pathReady 0 :: [] ∧
      (sending [] [] [] (.closing readback0)).control.streamer = .closing readback0 ∧
      (sending [] [] [[0x21]] (.closing readback0)).control.streamer ≠ .idle ∧ (sending [] [.pathReady 0] [[0x21]] .idle).control.notices ≠ [] ∧
      (sending [] [] [[0x21]] .idle).control.winner = .forward ∧
      ({ (sending [reply0] [] [[0x21]] .idle).control with winner := .own } : Control).winner = .own := by decide
theorem test_contention_with_a_notice_and_with_the_aborted_packet :
    (after .inboundBlockTransmit (sending [] [.pathReady 0] [[0x21]] .idle)).control.notices = [] ∧
      (after .inboundBlockTransmit (sending [] [] [[0x21]] (.closing readback0))).control.streamer = .idle ∧
      (after .inboundBlockTransmit (sending [] [] [[0x21]] (.streaming readback0))).control.forward = [[0x21]] := by decide +kernel
theorem test_contention_alternates :
    (after .inboundBlockTransmit (sending [reply0] [] [[0x21]] .idle)).control.winner = .own ∧
      (after .inboundBlockTransmit (sending [reply0] [] [[0x21]] .idle)).control.forward = [[0x21]] := by decide +kernel
theorem test_witness_ReadbackGrant :
    let s := sending [] [] [] (.streaming readback0)
    s.control.streamer = .streaming readback0 ∧ (s.path 0).chain[readback0.next]? = some 0 ∧ (s.path 0).owner = some 0 ∧
      (s.channel 0).comparison.pendingPromote = false ∧ 1 < readback0.remaining ∧
      ({ readback0 with next := 1, remaining := 1 } : Readback).remaining = 1 ∧ (s.path 0).chain[1]? = some 1 ∧
      (sending [] [] [[0x21]] (.streaming readback0)).control.winner = .forward := by decide
theorem test_last_grant_applies_the_pending_promote :
    let s := sending [] [] [] (.streaming { readback0 with next := 1, remaining := 1 })
    let waiting := s.putComparison 0 { (s.channel 0).comparison with pendingPromote := true }
    (waiting.channel 0).comparison.pendingPromote = true ∧ ((after .inboundBlockTransmit waiting).path 0).live = .b ∧
      ((after .inboundBlockTransmit waiting).channel 0).comparison.pendingPromote = false ∧
      (after .inboundBlockTransmit waiting).seed.queue = [{ path := 0, kind := .copy, first := 0, count := 2, done := 0 }] := by decide +kernel
theorem test_readback_ends_with_its_last_packet :
    (after .inboundBlockTransmit (sending [] [] [] (.streaming { readback0 with next := 1, remaining := 1 }))).control.streamer = .idle := by
  decide +kernel

/-! ### Witnesses: seed engine, comparator, channel blocks -/

theorem test_witness_SeedStepEffect :
    (seedWork [clear0]).seed.granted = true ∧ (seedWork [clear0]).ports.lock = .locked ∧ (seedWork [clear0]).unit.opState ≠ .offline ∧
      TablesSized (seedWork [clear0]) ∧ ((seedWork [clear0]).path 0).chain.Nodup ∧
      clear0.first + clear0.count = ((seedWork [clear0]).path 0).chain.length ∧ clear0.done < clear0.count ∧
      (seedWork [clear0]).control.notices.length < 8 ∧ (seedWork []).seed.queue = [] ∧
      ((seedWork []).pool.cells.read 1).a.upset = false := by
  unfold TablesSized
  decide +kernel
theorem test_witness_SeedStepEffect_one_partition :
    (seedWork [clear0]).seed.queue = clear0 :: [] ∧ (seedWork [clear0]).paths.length = 64 ∧ (seedWork [clear0]).pool.cells.wf = true ∧
      ((seedWork [clear0]).path 0).chain[clear0.first + clear0.done]? = some 0 ∧ clear0.done + 1 < clear0.count ∧
      ({ clear0 with done := 1 } : SeedRequest).done + 1 = ({ clear0 with done := 1 } : SeedRequest).count ∧
      work.seed.granted = false := by
  decide +kernel
theorem test_seed_step_goes_on_with_the_next_request :
    (after .seedStep (seedWork [clear0, { clear0 with kind := .copy }])).seed.queue = [] ∧
      ((after .seedStep (seedWork [clear0])).path 0).state = .ready := by decide +kernel
/-- RELEASE PATH and the step that completes the path's request, in either order (R17): the records come out the same, and the queue too where
no other request waits (log 33). -/
theorem test_release_and_completing_step_in_either_order :
    let s := { seedWork [clear0] with
      paths := work.paths.set 0 { work.path 0 with state := .seeding }, pool := { work.pool with free := [2, 3] } }
    let stepped := after (.releasePath 1 0) (after .seedStep s)
    let released := after .seedStep (after (.releasePath 1 0) s)
    stepped.pool.free = [2, 3, 0, 1] ∧ released.pool.free = [2, 3, 0, 1] ∧ stepped.path 0 = released.path 0 ∧
      stepped.channel 0 = released.channel 0 ∧ stepped.seed = released.seed := by decide +kernel
theorem test_copy_of_an_upset_live_set :
    let s := (seedWork [{ clear0 with kind := .copy }]).writePartition 0
      { a := { taps := List.replicate 64 5, upset := true }, b := { taps := List.replicate 64 7, upset := false } }
    ((after .seedStep s).pool.cells.read 0).b = { taps := silence, upset := false } ∧ (after .seedStep s).unit.isSet .coeffParity = true := by
  decide +kernel
theorem test_seed_step_only_after_its_mark :
    let s : State := { work with seed := { queue := [clear0], granted := false } }
    (after .seedStep s).seed = { queue := [clear0], granted := false } ∧
      (after .seedStep (after .blockIntervalTimerExpiry s)).seed = { queue := [], granted := false } := by decide +kernel
theorem test_seed_step_before_or_after_the_handling :
    let s : State := { work with ports := { work.ports with loss := 2 }, seed := { queue := [clear0], granted := false } }
    let arrival := fun first => Instr.outboundGoodArrival 50 0 (quiet 16) (windowOf none) first
    (after (arrival true) s).seed = { queue := [], granted := false } ∧ (after (arrival true) s).ports.lock = .unlocked ∧
      (after .seedStep (after (arrival false) s)).seed = { queue := [clear0], granted := false } := by decide +kernel
/-- `work` in the last block but one of its window, with a far count. -/
def windowed (far : Nat) (disturbed : Bool) : State :=
  workChannel fun ch => { ch with comparison := { ch.comparison with count := 15, farCount := far, disturbed := disturbed, liveSum := 100 } }
theorem test_witness_WindowEndEffect :
    (windowed 7 false).unit.opState = .run ∧ ((windowed 7 false).channel 0).mode = .cancel ∧ ((windowed 7 false).channel 0).slot ≠ none ∧
      ((windowed 7 false).channel 0).parityBad = false ∧
      ((windowed 7 false).channel 0).comparison.count + 1 = (windowed 7 false).comparator.window ∧
      ((windowed 7 false).channel 0).frozen = false ∧ ((windowed 7 false).channel 0).comparison.disturbed = false ∧
      (∀ p ∈ ((windowed 7 false).channel 0).paths, ((windowed 7 false).path p).state ≠ .seeding ∧ ((windowed 7 false).path p).readHeld = false) ∧
      (windowed 7 false).farIndication 0 = true ∧
      (windowed 7 false).comparator.window ≤ 2 * (((windowed 7 false).channel 0).comparison.farCount + 1) ∧
      ((windowed 7 true).channel 0).comparison.disturbed = true ∧
      2 * (((windowed 6 false).channel 0).comparison.farCount + 1) < (windowed 6 false).comparator.window := by decide
theorem test_window_with_a_better_background :
    ((after (.windowEnd 0 100 10 20) (windowed 7 false)).channel 0).comparison.promoteStreak = 1 ∧
      ((after (.windowEnd 0 100 10 20) (windowed 7 false)).channel 0).comparison.flagB = true ∧
      ((after (.windowEnd 0 100 10 20) (windowed 6 false)).channel 0).comparison.promoteStreak = 0 := by decide +kernel
/-- The share of a block in its window that leaves the background set better, or worse. -/
def share (live background : Nat) (far : Bool) : WindowShare :=
  { capture := 100, live := live, background := background, far := far, disturbed := false }
theorem test_witness_WindowEndEffect_due :
    let s := (windowed 8 false).putComparison 0
      { ((windowed 8 false).channel 0).comparison with promoteStreak := 1, divergenceStreak := 1, liveSum := 0 }
    let reading : State := { s with control := { s.control with streamer := .streaming readback0 } }
    (s.channel 0).comparison.count + 1 = s.comparator.window ∧ s.comparator.window ≤ 2 * ((s.channel 0).comparison.farCount + 0) ∧
      20 ^ 20 * 10 ^ s.comparator.promoteMargin ≤ 1000 ^ 20 ∧ s.comparator.promoteCount ≤ (s.channel 0).comparison.promoteStreak + 1 ∧
      ((s.accumulateWindow 0 (share 1000 20 false)).path 0).live = .b ∧
      ((reading.accumulateWindow 0 (share 1000 20 false)).path 0).live = .a ∧
      ((reading.accumulateWindow 0 (share 1000 20 false)).channel 0).comparison.pendingPromote = true ∧
      ((s.accumulateWindow 0 (share 20 1000 false)).channel 0).comparison.reseedCount = 1 := by decide +kernel
theorem test_witness_WindowEndEffect_inside :
    (work.channel 0).comparison.count + 1 < work.comparator.window ∧
      ((work.accumulateWindow 0 (share 1 2 true)).channel 0).comparison.farCount = 1 := by decide +kernel
theorem test_witness_LevelsRoundedDown :
    erleOf 1000 10 = 20 ∧ erleOf 5 7 = 0 ∧ erleOf (10 ^ 7) 1 = 60 ∧ wholeLevel 1 10 = -10 ∧ wholeLevel 0 10 = -120 ∧ wholeLevel 10 10 = 0 ∧
      quarterLevel 0 = -480 ∧ quarterLevel fullSine = 0 := by decide +kernel
theorem test_witness_PromotionAndReseed :
    work.channels.length = 24 ∧ work.paths.length = 64 ∧ (work.channel 0).paths.Nodup ∧ (∀ p ∈ (work.channel 0).paths, p < 64) ∧
      ((workChannel fun ch => { ch with comparison := { ch.comparison with reseedCount := 5 } }).channel 0).comparison.reseedCount + 1 =
        work.comparator.reseedLimit := by decide
theorem test_witness_ClipTestAndHeldSlots :
    let run := fun (n : Nat) => (workChannel fun ch => { ch with clipRun := n }).channel 0
    (work.channel 1).slot = none ∧ (run 30).clipRun < 31 ∧ (run 31).clipRun = 31 ∧ 32 ≤ (run 32).clipRun ∧ (run 0).parityBad = false ∧
      (run 31).slot ≠ none ∧ 0x7FFFFF#24 ∈ [0#24, 0x7FFFFF#24] ∧ isClipped [0x800000#24] = true ∧
      ¬(OpState.bypass = .run ∧ (run 0).mode = .cancel) ∧ (work.channel 1).mode = .pass ∧
      ((workChannel fun ch => { ch with parityBad := true }).channel 0).parityBad = true := by decide +kernel
theorem test_witness_HangoverExpiries :
    let s := workChannel fun ch => { ch with detector := { ch.detector with nearActive := true, hangover := 1 } }
    s.unit.opState = .run ∧ (s.channel 0).mode = .cancel ∧ (s.channel 0).slot ≠ none ∧ (s.channel 0).parityBad = false ∧
      (s.channel 0).detector.nearActive = true ∧ (s.channel 0).detector.hangover ≤ 1 ∧ (work.channel 0).detector.nearActive = false ∧
      (work.reference 0).active = true ∧ (work.reference 0).hangoverCount = 0 := by decide
theorem test_witness_TalkStateAndMatching :
    let flags : TalkFlags := { f := false, n := false, d := false, c := true, b := false, s := false, u := false }
    let e := (State.reset.decision.bank0).getD 0 DecisionEntry.blank
    [DecisionEntry.blank, { e with parityBad := true }, e] = [DecisionEntry.blank, { e with parityBad := true }] ++ e :: [] ∧
      e.parityBad = false ∧ e.fits flags = true ∧
      (∀ x ∈ [DecisionEntry.blank, { e with parityBad := true }], x.parityBad = true ∨ x.fits flags = false) ∧
      (matchEntries flags 0 [DecisionEntry.blank, { e with parityBad := true }, e]).2 = [1] := by decide
theorem test_witness_SuppressorAndNoise :
    let p : SuppressorState := { SuppressorState.initial 0 with gain := -12, floor := -320 }
    p.gain > -(2 * ((18 : Nat) : Int)) ∧ p.gain < -(2 * ((0 : Nat) : Int)) ∧ p.gain = -(2 * ((6 : Nat) : Int)) ∧
      quarterLevel 0 < p.floor ∧ p.floor + 1 < quarterLevel fullSine ∧ 0 + 1 < 8388608 := by decide +kernel
theorem test_witness_OutputSamplesExact :
    (suppressedSamples silence (-13) true 24 8388606).length = 64 ∧ silence[63]? = some 0 ∧
      suppressedSamples [1000] (-40) true (-504) 0 = [103] ∧ suppressedSamples [1000] (-40) false (-504) 0 = [100] ∧ suppressedSamples [1000] (-12) true 0 0 = suppressedSamples [1000] (-12) false 0 0 := by
  decide +kernel
theorem test_noise_register :
    noiseRegister 0 = 0x7FFFFF ∧ noiseRegister 1 = 0x7FFFFE ∧ noiseRegister 8388607 = 0x7FFFFF ∧ noiseRegister 349525 ≠ 0x7FFFFF := by
  decide +kernel
theorem test_witness_AlignedSamples :
    (∀ b ∈ [silence], b.length = 64) ∧ (alignedForSample (alignedRun [silence] 0) 0)[63]? = some 0 ∧
      (alignedForTap (alignedRun [silence] 511) 63)[0]? = some 0 := by decide
theorem test_witness_SampleArithmetic :
    silence.length = 64 ∧ zeroRun.length = 64 ∧ (∀ b ∈ [silence], b.length = 64) ∧ ([1#24] : Slot)[0]? = some 1 ∧ ([4194304] : List Int)[0]? = some 4194304 ∧
      residualSamples [1] [4194304] = [1] ∧ residualSamples [1] [4194305] = [0] ∧ roundDiv (-1) 2 = -1 ∧ roundDiv 1 2 = 1 := by decide
theorem test_witness_SampleArithmetic_stage_2 :
    (∀ h ∈ State.reset.histories.map (fun h => h.take 2), ∀ b ∈ h, b.length = 64) ∧ work.histories = State.reset.histories ∧
      silentHistory = List.replicate 512 silence ∧ (work.pool.cells.read 0).a.taps.length = 64 := by decide +kernel
theorem test_witness_AdaptationEffect :
    (work.path 0).state = .ready ∧ (work.path 0).readHeld = false ∧ (work.reference 0).parityBad = false ∧ work.pool.cells.wf = true ∧
      (work.path 0).chain.Nodup := by decide
theorem test_silent_span_does_not_move :
    let history := quiet 2 ++ List.replicate 510 (List.replicate 64 1000#24)
    let s := work.putHistory 0 history
    let ch := s.adaptPath false { adapt := true, stepScale := 0, target := 0, fill := false } (List.replicate 64 4000000) (s.readForBlock 0)
    spanPower history 0 2 = 0 ∧ (work.reference 0).bulk = 0 ∧ (work.path 0).chain.length = 2 ∧ ch.pool.cells = s.pool.cells := by
  decide +kernel
theorem test_witness_CancelBlockStages :
    (work.channel 0).parityBad = false ∧ (work.channel 0).slot = some 0 ∧ (work.channel 0).mode = .cancel ∧
      (work.channel 0).comparison.count + 1 < work.comparator.window ∧ isClipped silence = false ∧ (work.channel 0).paths = [0] ∧
      (work.path 0).reference = some 0 ∧ (work.reference 0).parityBad = false ∧
      (∀ m ∈ (work.path 0).chain, (work.pool.cells.read m).a.upset = false ∧ (work.pool.cells.read m).b.upset = false) ∧
      (∀ e ∈ work.decision.bank0, e.parityBad = false) ∧
      ∀ near, (matchEntries { f := false, n := near, d := false, c := false, b := false, s := false, u := true } 0 work.decision.bank0).1.adapt =
        false := by decide +kernel

/-! ### Witnesses: commands -/

theorem test_witness_AllocatePathEffect :
    (fresh.reference 0).parityBad = false ∧ (fresh.reference 0).bulk + 448 ≤ 512 ∧ (fresh.reference 0).slot ≠ none ∧ (fresh.channel 23).paths = [] ∧
      (fresh.path 0).state = .unused ∧ 448 ≤ fresh.pool.free.length ∧ (fresh.reference 7).slot = none ∧
      512 < ({ Reference.initial with bulk := 127 } : Reference).bulk + 448 ∧ ¬(24 : Byte).toNat ≤ 23 ∧
      (∃ q ∈ (work.channel 0).paths, (work.path q).reference = some 0) ∧ 4 ≤ [0, 1, 2, 3].length := by decide +kernel
theorem test_witness_AllocatePathEffect_mismatch :
    (upsetWork.reference 0).parityBad = true ∧ (∃ q ∈ (upsetWork.channel 0).paths, (upsetWork.path q).reference = some 0) ∧
      (upsetWork.channel 1).paths = [] ∧ (upsetWork.path 1).state = .unused ∧ (upsetWork.path 0).state ≠ .unused ∧
      448 ≤ upsetWork.pool.free.length ∧
      ((upsetWork.putChannel 1 { upsetWork.channel 1 with parityBad := true }).channel 1).parityBad = true := by decide +kernel
theorem test_allocation_raises_for_what_it_reads :
    let s := upsetWork.putChannel 1 { upsetWork.channel 1 with parityBad := true }
    let t := after (.allocatePath 9 1 0 2 6) s
    t.unit.record = some { cls := .tableParity, subject := .reference 0, tag := some 9, seq := 10 } ∧ t.unit.multiple = true ∧
      (t.path 1).state = .seeding ∧ (after (.allocatePath 9 0 0 2 6) upsetWork).unit.isSet .tableParity = true ∧
      (after (.allocatePath 9 0 0 0 6) upsetWork).unit.isSet .tableParity = false := by decide +kernel
theorem test_witness_ReleasePathEffect :
    63 < (64 : Byte).toNat ∧ (work.path 63).state = .unused ∧ (work.path 0).state ≠ .unused ∧ (work.path 0).owner = some 0 := by decide
theorem test_witness_ResizePathEffect :
    (work.path 0).state = .ready ∧ (work.path 0).owner = some 0 ∧ (work.path 0).reference = some 0 ∧ (work.reference 0).parityBad = false ∧
      (work.reference 0).bulk + 448 ≤ 512 ∧ (1 : Half).toNat < (work.path 0).chain.length ∧ (2 : Half).toNat = (work.path 0).chain.length ∧
      (448 : Half).toNat - (work.path 0).chain.length ≤ work.pool.free.length ∧
      ((workPath fun r => { r with state := .seeding }).path 0).state = .seeding := by decide +kernel
theorem test_witness_ResizePathEffect_mismatch :
    (2 : Half).toNat = (upsetWork.path 0).chain.length ∧ (upsetWork.reference 0).parityBad = true ∧ ¬(449 : Half).toNat ≤ 448 := by decide +kernel
theorem test_resize_raises_when_it_is_carried_out :
    let raised := fun length => (after (.resizePath 9 0 length) upsetWork).unit.isSet .tableParity
    raised 449 = false ∧ raised 2 = false ∧ raised 1 = true ∧ raised 3 = true := by decide +kernel
theorem test_witness_WriteChannelEffect :
    (work.channel 1).parityBad = false ∧ (1 : Byte) = ChannelMode.cancel.byte ∧
      (∃ k < 24, k ≠ 1 ∧ (work.channel k).slot = some 0) ∧ ¬(∃ k < 24, k ≠ 1 ∧ (work.channel k).slot = some 31) ∧ 2 < (3 : Byte).toNat := by
  decide
theorem test_witness_WriteReferenceEffect :
    (work.reference 1).parityBad = false ∧ (-180 : Int) ≤ (0xFF4C : Half).toInt ∧ (0xFFD8 : Half).toInt ≤ -40 ∧
      (∃ k < 8, k ≠ 1 ∧ (work.reference k).slot = some 0) ∧ (∃ p ∈ work.paths, p.state ≠ .unused ∧ p.reference = some 0) ∧
      ¬(∃ p ∈ work.paths, p.state ≠ .unused ∧ p.reference = some 0 ∧ 512 < 127 + p.chain.length) := by decide
theorem test_write_reads_the_other_records :
    let s := (work.putChannel 2 { work.channel 2 with parityBad := true }).putReference 3 { work.reference 3 with parityBad := true }
    (after (.writeChannel 5 1 0 1) s).unit.record =
        some { cls := .tableParity, subject := .channel 2, tag := some 5, seq := work.ports.lastSeq } ∧
      (after (.writeReference 5 1 0 0 0 (-120) 1) s).unit.record =
        some { cls := .tableParity, subject := .reference 3, tag := some 5, seq := work.ports.lastSeq } ∧
      (after (.writeChannel 5 24 0 1) s).unit.record = none := by decide +kernel
theorem test_witness_FreezeAndLoadEffect_freeze : Accepting work ∧ (work.channel 0).frozen = false ∧ 1 < (2 : Byte).toNat :=
  ⟨test_work_is_lawful.2.2.2.1, rfl, by decide⟩
theorem test_witness_FreezeAndLoadEffect_load :
    let s := workChannel fun ch => { ch with frozen := true }
    (s.path 0).state = .ready ∧ (s.path 0).owner = some 0 ∧ (s.channel 0).frozen = true ∧ (s.path 0).readHeld = false ∧
      (s.path 0).chain[(1 : Half).toNat]? = some 1 ∧ (s.path 0).chain.length ≤ (2 : Half).toNat ∧ s.pool.cells.wf = true := by decide
theorem test_write_coeff_goes_to_the_background_set :
    ((after (.writeCoeff 1 0 1 (List.replicate 64 7)) (workChannel fun ch => { ch with frozen := true })).pool.cells.read 1).b.taps =
        List.replicate 64 7 ∧
      ((after (.writeCoeff 1 0 1 (List.replicate 64 7)) (workChannel fun ch => { ch with frozen := true })).pool.cells.read 1).a.taps =
        silence := by decide +kernel
theorem test_witness_WriteComparisonEffect :
    (ComparatorParams.initial.inRange = true) ∧ ({ ComparatorParams.initial with window := 7 } : ComparatorParams).inRange = false ∧
      ({ ComparatorParams.initial with window := 64, threshold := 48 } : ComparatorParams).inRange = true := by decide
theorem test_witness_PromotionAndReseed_command :
    (work.channel 0).paths ≠ [] ∧ (work.channel 1).paths = [] ∧ (work.path 0).state = .ready ∧ work.control.streamer = .idle ∧
      ((workPath fun r => { r with state := .seeding }).path 0).state = .seeding := by decide
theorem test_promotion_flips_the_live_set :
    ((after (.promoteChannel 1 0) work).path 0).live = .b ∧ ((after (.promoteChannel 1 0) work).path 0).state = .seeding ∧
      (after (.promoteChannel 1 0) work).seed.queue = [{ path := 0, kind := .copy, first := 0, count := 2, done := 0 }] := by decide +kernel
theorem test_witness_PlainReads :
    Accepting work ∧ 63 < (64 : Byte).toNat ∧ 24 < (25 : Byte).toNat ∧ work.unit.record = none ∧
      (work.raise .replyOverflow (.tag 9) (some 9)).unit.record.bind FaultRecord.tag = some 9 ∧
      (work.raise .replyOverflow (.tag 9) (some 9)).unit.recordBytes.take 6 = [0xA6, 6, 9, 0, 0, 9] :=
  ⟨test_work_is_lawful.2.2.2.1, by decide, by decide, by decide, by decide, by decide⟩
theorem test_witness_SetStepAndPoolReads :
    Accepting work ∧ (work.path 0).chain.length ≤ (2 : Half).toNat ∧ (work.path 1).state = .unused ∧ (1 : Half).toNat < (work.path 0).chain.length :=
  ⟨test_work_is_lawful.2.2.2.1, by decide, by decide, by decide⟩
theorem test_witness_DecisionWrites :
    (∀ i < 8, (0x61 : Byte).getLsbD i = true → (0x61 : Byte).getLsbD i = true) ∧ (1 : Byte).toNat ≠ work.decision.active ∧
      (0 : Byte).toNat = work.decision.active ∧ (45 : Byte).toNat ≤ 45 ∧ (45 : Byte).toNat % 3 = 0 ∧ (0xE3 : Byte).getLsbD 4 = false := by decide
theorem test_witness_ParameterWrites : Accepting work ∧ 4096 ≤ (0x1000 : Half).toNat ∧ ¬4096 ≤ (0x0FFF : Half).toNat :=
  ⟨test_work_is_lawful.2.2.2.1, by decide, by decide⟩
theorem test_witness_ReadbackCommands :
    work.control.streamer = .idle ∧ (work.path 0).state ≠ .unused ∧ (work.path 0).chain.length < (1 : Half).toNat + (2 : Half).toNat ∧
      (0 : Half).toNat + (2 : Half).toNat ≤ (work.path 0).chain.length ∧
      (workControl fun c => { c with streamer := .streaming readback0 }).control.streamer = .streaming readback0 ∧
      (work.path readback0.path).owner = some 0 ∧
      ((workChannel fun ch => { ch with comparison := { ch.comparison with pendingPromote := true } }).channel 0).comparison.pendingPromote =
        true := by decide
theorem test_witness_SetModeEffect :
    work.unit.opState = .run ∧ work.unit.opState ≠ .offline ∧ work.unit.opState ≠ .bypass ∧ work.ports.lock = .locked ∧
      ¬GraveStands work.unit ∧ work.control.notices.length < 8 ∧ State.reset.unit.opState = .offline ∧
      GraveStands (workUnit fun u => { u with status := 0xFFF }).unit := by
  rw [← FaultUnit.graveSet_iff, ← FaultUnit.graveSet_iff]
  decide
theorem test_witness_ClearFaultsEffect :
    (0x0FFF : Half).toNat < 4096 ∧ 4096 ≤ (0x1000 : Half).toNat ∧
      (work.raise .headerCrc (.port .core) none).unit.record.map FaultRecord.cls = some .headerCrc ∧
      (1 : Half).getLsbD FaultClass.headerCrc.code = true ∧ (2 : Half).getLsbD FaultClass.headerCrc.code = false := by decide
theorem test_witness_FullReplyQueueDropsCommands :
    commandOf (.status 5) = some (0x70, 5, []) ∧
      16 ≤ (workControl fun c => { c with replies := List.replicate 16 reply0 }).control.replies.length := by decide

/-! ### Witnesses: a step, and a state that has every law -/

theorem test_witness_laws_kept :
    (∃ t, step { work with pending := [.seedStep] } = .next t) ∧ TablesSized work ∧ QueuesBounded work ∧ FaultLogSound work.unit ∧
      PortsSound work := by
  refine ⟨⟨_, rfl⟩, test_work_is_lawful.1, test_work_is_lawful.2.1, (rfl : work.unit.multiple = false), (⟨rfl, by decide, rfl⟩ : LockCounts work.ports), ?_⟩
  decide
theorem test_work_channel (c : Nat) (h : c ≠ 0) : work.channel c = Channel.initial c := by
  obtain ⟨n, rfl⟩ := Nat.exists_eq_succ_of_ne_zero h
  by_cases hn : n < 23
  · interval_cases n <;> rfl
  · simp [State.channel, work]
    rw [List.getElem?_eq_none (by simp; omega)]
    rfl
theorem test_work_reference (r : Nat) (h : r ≠ 0) : work.reference r = Reference.initial := by
  obtain ⟨n, rfl⟩ := Nat.exists_eq_succ_of_ne_zero h
  by_cases hn : n < 7
  · interval_cases n <;> rfl
  · simp [State.reference, work, hn]
theorem test_work_path (p : Nat) (h : p ≠ 0) : work.path p = PathRecord.unused := by
  obtain ⟨n, rfl⟩ := Nat.exists_eq_succ_of_ne_zero h
  have h : work.path (n + 1) = (List.replicate 63 PathRecord.unused).getD n PathRecord.unused := rfl
  rw [Nat.succ_eq_add_one, h, List.getD_eq_getElem?_getD, List.getElem?_replicate]
  split <;> rfl
theorem test_witness_slots_distinct : SlotsDistinct work := by
  refine ⟨fun i _ j _ hne hs => ?_, fun i _ j _ hne hs => ?_⟩
  · have hi : i = 0 := by
      by_contra h
      exact hs (by rw [test_work_channel i h]; rfl)
    subst hi
    rw [test_work_channel j (fun e => hne e.symm)]
    exact hs
  · have hi : i = 0 := by
      by_contra h
      exact hs (by rw [test_work_reference i h]; rfl)
    subst hi
    rw [test_work_reference j (fun e => hne e.symm)]
    exact hs
theorem test_witness_ranges : FieldsInRange work := by
  refine ⟨rfl, fun r hr => ?_, by decide +kernel, fun ch hc => ?_, fun e he => ?_, fun e he => ?_, by decide +kernel, by decide +kernel⟩
  · simp only [work, List.mem_cons, List.mem_replicate] at hr
    rcases hr with rfl | ⟨_, rfl⟩ <;> simp [ReferenceInRange, Reference.initial]
  · simp only [work, List.mem_cons, List.mem_map] at hc
    rcases hc with rfl | ⟨x, hx, rfl⟩
    · simp [ChannelInRange, ComparisonInRange, DetectorInRange, SuppressorInRange, Channel.initial, ComparisonState.initial,
        DetectorState.initial, SuppressorState.initial, work, State.reset, ComparatorParams.initial]
    · have : x < 24 := by simpa using List.mem_of_mem_drop hx
      simp [ChannelInRange, ComparisonInRange, DetectorInRange, SuppressorInRange, Channel.initial, ComparisonState.initial,
        DetectorState.initial, SuppressorState.initial, work, State.reset, ComparatorParams.initial]
      omega
  · revert e
    unfold EntryInRange
    decide +kernel
  · revert e
    unfold EntryInRange
    decide +kernel
theorem test_witness_pool_laws : PoolSound work := by
  refine ⟨rfl, test_work_is_lawful.2.2.1, ?_, fun r hr => ?_⟩
  · have h : work.pool.free ++ work.paths.flatMap PathRecord.chain = List.range' 2 6142 ++ List.range' 0 2 := by
      simp [work, List.flatMap_cons, PathRecord.unused]
      rfl
    have e : List.range' 0 6144 = List.range' 0 2 ++ List.range' 2 6142 := (List.range'_append_1 (s := 0) (m := 2) (n := 6142)).symm
    unfold PoolLaw
    rw [h, e]
    exact List.perm_append_comm
  · simp only [work, List.mem_cons, List.mem_replicate] at hr
    rcases hr with rfl | ⟨_, rfl⟩
    · refine ⟨by decide +kernel, fun k hk => ?_⟩
      cases hk
      decide +kernel
    · exact ⟨by decide +kernel, fun k hk => by cases hk⟩
theorem test_witness_path_laws : PathsSound work := by
  refine ⟨rfl, rfl, test_work_is_lawful.2.2.1, by decide +kernel, by decide +kernel, by decide +kernel, ⟨fun c _ => ?_, fun p _ hp => ?_⟩,
    ⟨by decide +kernel, fun p _ => ?_, by decide +kernel, by decide +kernel⟩, ⟨fun rb h => (nomatch h), fun p _ => ?_⟩, fun c _ h => ?_⟩
  · by_cases h : c = 0
    · subst h
      decide +kernel
    · rw [test_work_channel c h]
      simp [Channel.initial]
  · have : p = 0 := by
      by_contra h
      rw [test_work_path p h] at hp
      exact hp rfl
    subst this
    exact ⟨0, by decide +kernel⟩
  · by_cases h : p = 0
    · subst h
      decide +kernel
    · rw [test_work_path p h]
      simp [PathRecord.unused, work, State.reset, SeedEngine.initial]
  · have hf : (work.path p).readHeld = false := by
      by_cases h : p = 0
      · subst h
        rfl
      · rw [test_work_path p h]
        rfl
    rw [hf]
    simp [work, State.reset, Control.initial]
  · exfalso
    by_cases h0 : c = 0
    · subst h0
      cases h
    · rw [test_work_channel c h0] at h
      cases h

end Sys2Proof.Tests
end

section
/-! What most rows leave alone of the paths: table, lists, pending promotes, free list, bulk delays, seed queue and readback. -/

namespace Sys2Proof.Machine

open Sys2Proof.Safety

/-! ### Records by number after a write -/

theorem State.path_putPath (s : State) (p q : Nat) (x : PathRecord) :
    (s.putPath p x).path q = if p = q ∧ p < s.paths.length then x else s.path q := by
  by_cases h : p = q
  · subst h
    by_cases hp : p < s.paths.length
    · rw [s.path_putPath_self p x hp, if_pos ⟨rfl, hp⟩]
    · simp [State.path, hp, List.set_eq_of_length_le (by omega : s.paths.length ≤ p)]
  · rw [s.path_putPath_ne p q x h, if_neg fun k => h k.1]

theorem State.channel_putChannel (s : State) (c k : Nat) (x : Channel) :
    (s.putChannel c x).channel k = if c = k ∧ c < s.channels.length then x else s.channel k := by
  by_cases h : c = k
  · subst h
    by_cases hc : c < s.channels.length
    · rw [s.channel_putChannel_self c x hc, if_pos ⟨rfl, hc⟩]
    · simp [State.channel, hc, List.set_eq_of_length_le (by omega : s.channels.length ≤ c)]
  · rw [s.channel_putChannel_ne c k x h, if_neg fun e => h e.1]

/-- What a record put shares with the one it replaces, every record keeps. -/
theorem State.channel_putChannel_congr {β : Type} (g : Channel → β) (s : State) (c : Nat) (x : Channel) (h : g x = g (s.channel c))
    (k : Nat) : g ((s.putChannel c x).channel k) = g (s.channel k) := by
  rw [s.channel_putChannel c k x]
  split
  · next e => rw [h, e.1]
  · rfl

/-- What a change of every record keeps of a record, it keeps of each. -/
theorem State.channel_map_congr {β : Type} (g : Channel → β) (f : Channel → Channel) (h : ∀ ch, g (f ch) = g ch) (s : State) (k : Nat) :
    g ((s.setChannels (s.channels.map f)).channel k) = g (s.channel k) := by
  simp only [State.channel, State.setChannels_channels, List.getD_eq_getElem?_getD, List.getElem?_map]
  cases s.channels[k]? <;> simp [h]

/-! ### What most rows leave alone -/

/-- The readback in progress, if there is one. -/
def Streamer.readback : Streamer → Option Readback
  | .streaming rb => some rb
  | .idle => none
  | .closing _ => none

theorem Streamer.readback_eq_some {x : Streamer} {rb : Readback} : x.readback = some rb ↔ x = .streaming rb := by
  cases x <;> simp [Streamer.readback]

/-- Path table, path lists, pending promotes, free list, bulk delays, seed queue and readback are as they were, and the comparator's window and
promote count still in their ranges. -/
structure SamePaths (s t : State) : Prop where
  channelCount : t.channels.length = s.channels.length
  paths : t.paths = s.paths
  lists : ∀ c, (t.channel c).paths = (s.channel c).paths
  pending : ∀ c, (t.channel c).comparison.pendingPromote = (s.channel c).comparison.pendingPromote
  free : t.pool.free = s.pool.free
  bulk : ∀ k, (t.reference k).bulk = (s.reference k).bulk
  comparator : 8 ≤ s.comparator.window ∧ 1 ≤ s.comparator.promoteCount → 8 ≤ t.comparator.window ∧ 1 ≤ t.comparator.promoteCount
  queue : t.seed.queue = s.seed.queue
  readback : t.control.streamer.readback = s.control.streamer.readback

theorem SamePaths.refl (s : State) : SamePaths s s := by constructor <;> simp

theorem SamePaths.trans {s t u : State} (h : SamePaths s t) (k : SamePaths t u) : SamePaths s u where
  channelCount := k.channelCount.trans h.channelCount
  paths := k.paths.trans h.paths
  lists := fun c => (k.lists c).trans (h.lists c)
  pending := fun c => (k.pending c).trans (h.pending c)
  free := k.free.trans h.free
  bulk := fun n => (k.bulk n).trans (h.bulk n)
  comparator := fun w => k.comparator (h.comparator w)
  queue := k.queue.trans h.queue
  readback := k.readback.trans h.readback

theorem SamePaths.path {s t : State} (h : SamePaths s t) (p : Nat) : t.path p = s.path p := by simp [State.path, h.paths]

theorem SamePaths.of_eq {s t : State} (channels : t.channels = s.channels) (paths : t.paths = s.paths) (free : t.pool.free = s.pool.free)
    (bulk : ∀ k, (t.reference k).bulk = (s.reference k).bulk) (comparator : t.comparator = s.comparator)
    (queue : t.seed.queue = s.seed.queue) (readback : t.control.streamer.readback = s.control.streamer.readback) : SamePaths s t where
  channelCount := by rw [channels]
  paths := paths
  lists := fun c => by simp [State.channel, channels]
  pending := fun c => by simp [State.channel, channels]
  free := free
  bulk := bulk
  comparator := by rw [comparator]; exact id
  queue := queue
  readback := readback

theorem PeriodWork.bulk {s t : State} (h : PeriodWork s t) (k : Nat) : (t.reference k).bulk = (s.reference k).bulk :=
  congrArg (fun x => x.2.1) (h.reference k)

theorem PeriodWork.samePaths {s t : State} (h : PeriodWork s t) : SamePaths s t :=
  .of_eq h.channels h.paths (by rw [h.pool]) h.bulk h.comparator h.queue (by rw [h.streamer])

theorem Reports.samePaths {s t : State} (h : Reports s t) : SamePaths s t := h.periodWork.samePaths

theorem State.raise_samePaths (s : State) (c : FaultClass) (x : Subject) (t : Option Byte) : SamePaths s (s.raise c x t) :=
  (s.raise_reports c x t).samePaths

theorem State.setPorts_samePaths (s : State) (x : Ports) : SamePaths s (s.setPorts x) := .of_eq rfl rfl rfl (fun _ => rfl) rfl rfl rfl

theorem State.setUnit_samePaths (s : State) (x : FaultUnit) : SamePaths s (s.setUnit x) := .of_eq rfl rfl rfl (fun _ => rfl) rfl rfl rfl

theorem State.setDecision_samePaths (s : State) (x : Decision) : SamePaths s (s.setDecision x) := .of_eq rfl rfl rfl (fun _ => rfl) rfl rfl rfl

theorem State.setPending_samePaths (s : State) (x : List Instr) : SamePaths s (s.setPending x) := .of_eq rfl rfl rfl (fun _ => rfl) rfl rfl rfl

theorem State.setControl_samePaths (s : State) (x : Control) (h : x.streamer.readback = s.control.streamer.readback) :
    SamePaths s (s.setControl x) := .of_eq rfl rfl rfl (fun _ => rfl) rfl rfl h

theorem State.setSeed_samePaths (s : State) (x : SeedEngine) (h : x.queue = s.seed.queue) : SamePaths s (s.setSeed x) :=
  .of_eq rfl rfl rfl (fun _ => rfl) rfl h rfl

theorem State.writePartition_samePaths (s : State) (n : Nat) (x : Partition) : SamePaths s (s.writePartition n x) :=
  .of_eq rfl rfl rfl (fun _ => rfl) rfl rfl rfl

/-- A channel's record replaced, its path list and pending promote kept. -/
theorem State.putChannel_samePaths (s : State) (c : Nat) (x : Channel) (h : x.paths = (s.channel c).paths)
    (k : x.comparison.pendingPromote = (s.channel c).comparison.pendingPromote) : SamePaths s (s.putChannel c x) where
  channelCount := by simp
  paths := rfl
  lists := State.channel_putChannel_congr Channel.paths s c x h
  pending := State.channel_putChannel_congr (fun ch => ch.comparison.pendingPromote) s c x k
  free := rfl
  bulk := fun _ => rfl
  comparator := id
  queue := rfl
  readback := rfl

theorem State.putComparison_samePaths (s : State) (c : Nat) (m : ComparisonState)
    (h : m.pendingPromote = (s.channel c).comparison.pendingPromote) : SamePaths s (s.putComparison c m) :=
  s.putChannel_samePaths c _ rfl h

/-- Every channel's record replaced, its path list and pending promote kept. -/
theorem State.mapChannels_samePaths (s : State) (f : Channel → Channel) (h : ∀ ch, (f ch).paths = ch.paths)
    (k : ∀ ch, (f ch).comparison.pendingPromote = ch.comparison.pendingPromote) : SamePaths s (s.setChannels (s.channels.map f)) where
  channelCount := by simp
  paths := rfl
  lists := State.channel_map_congr Channel.paths f h s
  pending := State.channel_map_congr (fun ch => ch.comparison.pendingPromote) f k s
  free := rfl
  bulk := fun _ => rfl
  comparator := id
  queue := rfl
  readback := rfl

theorem State.resetComparison_samePaths (s : State) (c : Nat) : SamePaths s (s.resetComparison c) := s.putComparison_samePaths c _ rfl

theorem State.clipTest_samePaths (s : State) (c : Nat) (clipped : Bool) : SamePaths s (s.clipTest c clipped) := by
  have put : ∀ n, SamePaths s (s.putChannel c { s.channel c with clipRun := n }) := fun n => s.putChannel_samePaths c _ rfl rfl
  unfold State.clipTest
  simp only
  split
  · split
    · split
      · exact (put _).trans (State.raise_samePaths _ _ _ _)
      · exact put _
    · exact SamePaths.refl s
  · exact put 0

/-- Steps that each leave the paths alone, one after another. -/
theorem SamePaths.foldl {α : Type} (f : State → α → State) (h : ∀ s x, SamePaths s (f s x)) (l : List α) (s : State) :
    SamePaths s (l.foldl f s) := by
  induction l generalizing s with
  | nil => exact SamePaths.refl s
  | cons x rest ih => exact (h s x).trans (ih _)

theorem State.moveChain_samePaths (s : State) (set : SetId) (divisor : Nat) (residual : List Int) (history : List Slot) (age : Nat)
    (ns : List Nat) (xs : List CoeffSet) : SamePaths s (s.moveChain set divisor residual history age ns xs) := by
  induction ns generalizing s age xs with
  | nil => cases xs <;> exact SamePaths.refl s
  | cons n ns ih =>
    cases xs with
    | nil => exact SamePaths.refl s
    | cons x xs => exact (s.writePartition_samePaths n _).trans (ih _ _ _)

theorem State.adaptPath_samePaths (s : State) (frozen : Bool) (action : Action) (residual : List Int) (r : PathRead) :
    SamePaths s (s.adaptPath frozen action residual r) := by
  unfold State.adaptPath
  split
  · exact s.moveChain_samePaths _ _ _ _ _ _ _
  · exact SamePaths.refl s

theorem State.checkChannel_samePaths (s : State) (c : Nat) (tag : Byte) : SamePaths s (s.checkChannel c tag) :=
  (s.checkChannel_reports c tag).samePaths
theorem State.checkReference_samePaths (s : State) (r : Nat) (tag : Byte) : SamePaths s (s.checkReference r tag) :=
  (s.checkReference_reports r tag).samePaths

theorem State.rewritePartition_samePaths (s : State) (q : SeedRequest) : SamePaths s (s.rewritePartition q) := by
  unfold State.rewritePartition
  simp only
  split
  · exact SamePaths.refl s
  · split
    · exact s.writePartition_samePaths _ _
    · split
      · exact (s.writePartition_samePaths _ _).trans (State.raise_samePaths _ _ _ _)
      · exact s.writePartition_samePaths _ _

/-- FREEZE CHANNEL leaves the paths alone, or clears the channel's pending promote and no more of them (R62). -/
theorem State.freeze_cases (s : State) (c : Nat) (value : Bool) :
    SamePaths s (s.freeze c value) ∨ ∃ t, SamePaths s t ∧ s.freeze c value = t.clearPending c := by
  unfold State.freeze
  simp only
  have put : SamePaths s (s.putChannel c { s.channel c with frozen := value }) := s.putChannel_samePaths c _ rfl rfl
  split
  · exact .inl (SamePaths.refl s)
  · split
    · exact .inr ⟨_, put.trans (State.resetComparison_samePaths _ c), rfl⟩
    · exact .inl (put.trans (State.resetComparison_samePaths _ c))

end Sys2Proof.Machine
end

section
/-! What the commands of chapter 1 do to the whole state, and what the end of a readback can do. -/

namespace Sys2Proof.Machine

open Sys2Proof.Safety

/-! ### The commands of chapter 1 -/

/-- A command taken: its execution's state with its execution's reply (R144, R145). -/
theorem exec_taken {i : Instr} {s : State} {code tag : Byte} {f : State → Answer} (h : Accepting s)
    (e : exec i s = .next (s.whilePortsRun fun s => s.take code tag f)) :
    exec i s = .next (replied (f s).state tag code (f s).outcome (f s).payload) := by
  rw [e, s.whilePortsRun_run _ h.1, s.take_room code tag f h.2]
  rfl

/-- A comparison state reset that clears the pending promote too, of a record just put. -/
theorem State.putChannel_resetComparisonFully (s : State) (c : Nat) (x : Channel) :
    (s.putChannel c x).resetComparisonFully c = s.putChannel c { x with comparison := comparisonReset x.comparison false } := by
  unfold State.resetComparisonFully State.clearPending State.resetComparison State.putComparison
  rw [State.putChannel_putChannel, State.putChannel_putChannel]
  refine congrArg s.setChannels (List.set_getD_congr _ _ _ _ fun hc => ?_)
  rw [s.channel_putChannel_self c x hc, State.putChannel_putChannel, s.channel_putChannel_self c _ hc]
  rfl

theorem State.resetComparisonFully_eq (s : State) (c : Nat) :
    s.resetComparisonFully c = s.putChannel c { s.channel c with comparison := comparisonReset (s.channel c).comparison false } := by
  rw [← State.putChannel_resetComparisonFully]
  refine congrArg (State.resetComparisonFully · c) (?_ : s = s.setChannels _)
  by_cases hc : c < s.channels.length
  · simp [State.setChannels, State.channel, hc]
  · rw [List.set_eq_of_length_le (by omega)]
    rfl

/-- ALLOCATE PATH carried out, field by field (R14). -/
theorem State.allocate_eq (s : State) (p c r n step : Nat) :
    s.allocate p c r n step =
      { s with
        pool := { s.pool with free := s.pool.free.drop n }
        paths := s.paths.set p
          { state := .seeding, owner := some c, reference := some r, chain := s.pool.free.take n, live := .a, step := step, readHeld := false }
        seed := { s.seed with queue := s.seed.queue ++ [{ path := p, kind := .clear, first := 0, count := n, done := 0 }] }
        channels := s.channels.set c
          { s.channel c with paths := (s.channel c).paths ++ [p], comparison := comparisonReset (s.channel c).comparison false } } := by
  unfold State.allocate
  dsimp only
  rw [State.putChannel_resetComparisonFully]
  rfl

theorem Reports.channel {s t : State} (h : Reports s t) (c : Nat) : t.channel c = s.channel c := by simp [State.channel, h.channels]
theorem Reports.path {s t : State} (h : Reports s t) (p : Nat) : t.path p = s.path p := by simp [State.path, h.paths]
theorem Reports.reference {s t : State} (h : Reports s t) (r : Nat) : t.reference r = s.reference r := by simp [State.reference, h.references]

theorem Reports.lowestUnused {s t : State} (h : Reports s t) : t.lowestUnused = s.lowestUnused := by
  simp only [State.lowestUnused, h.path]

/-- The end of a readback before a pending promote is applied: read-held becomes no after a BACKGROUND one (R151, R152). -/
def State.unheld (s : State) (rb : Readback) : State :=
  if rb.set = .background then s.putPath rb.path { s.path rb.path with readHeld := false } else s

theorem State.unheld_channel (s : State) (rb : Readback) (c : Nat) : (s.unheld rb).channel c = s.channel c := by
  unfold State.unheld
  split <;> rfl

/-- A record after the end of a readback is the one before it, but that it is not read-held where the readback held it. -/
theorem State.unheld_path (s : State) (rb : Readback) (p : Nat) :
    (s.unheld rb).path p =
      { s.path p with readHeld := if rb.set = .background ∧ rb.path = p then false else (s.path p).readHeld } := by
  unfold State.unheld
  split
  · next background =>
    rw [State.path_putPath]
    by_cases e : rb.path = p
    · subst e
      by_cases inTable : rb.path < s.paths.length
      · simp [inTable, background]
      · simp [inTable, State.path, PathRecord.unused]
    · simp [e]
  · next live => simp [live]

/-- What the end of a readback can do: the owner channel's pending promote is applied exactly where it is set (R75, R151, R152). -/
theorem State.finishReadback_cases (s : State) (rb : Readback) :
    (s.finishReadback rb = s.unheld rb ∧ ∀ c, (s.path rb.path).owner = some c → (s.channel c).comparison.pendingPromote = false) ∨
      ∃ c, (s.path rb.path).owner = some c ∧ (s.channel c).comparison.pendingPromote = true ∧
        s.finishReadback rb = (s.unheld rb).applyPromotion c := by
  have owner : ((s.unheld rb).path rb.path).owner = (s.path rb.path).owner := by rw [State.unheld_path]
  have finish : s.finishReadback rb = match ((s.unheld rb).path rb.path).owner with
      | some c => if ((s.unheld rb).channel c).comparison.pendingPromote then (s.unheld rb).applyPromotion c else s.unheld rb
      | none => s.unheld rb := rfl
  rw [finish, owner]
  cases (s.path rb.path).owner with
  | none => exact .inl ⟨rfl, fun _ h => nomatch h⟩
  | some c =>
    simp only [State.unheld_channel, Option.some.injEq, forall_eq', exists_eq_left']
    by_cases pending : (s.channel c).comparison.pendingPromote = true
    · exact .inr ⟨pending, by rw [if_pos pending]⟩
    · exact .inl ⟨by rw [if_neg pending], by simpa using pending⟩

/-- Settles O38: the checks of R13 one after another, each on the values that the mismatches' raises leave as they were. -/
theorem allocatePathEffect : Obligations.AllocatePathEffect := by
  intro s tag channel reference length step accepting result inRange ref ch fresh read2 read4
  have reports2 : Reports s read2 := s.checkReference_reports reference.toNat tag
  have checked4 : read2.checkChannel channel.toNat tag = read4 := by
    unfold State.checkChannel
    rw [reports2.channel]
  have reports4 : Reports s read4 := checked4 ▸ reports2.trans (State.checkChannel_reports _ _ _)
  have ran : result = _ := exec_taken accepting rfl
  have checked2 : s.checkReference reference.toNat tag = read2 := rfl
  have ranges : (23 < channel.toNat ∨ 7 < reference.toNat ∨ length.toNat < 1 ∨ 448 < length.toNat ∨ step.toNat < 1 ∨ 10 < step.toNat) ↔
      ¬inRange := by
    show _ ↔ ¬(_ ∧ _)
    omega
  have shared : ((s.channel channel.toNat).paths.any fun p => (s.path p).reference == some reference.toNat) = true ↔ ¬fresh := by
    simp [fresh, ch]
  simp only [ranges, checked2, checked4, reports2.reference, reports4.channel, reports4.path, shared, reports4.lowestUnused, Pool.freeCount,
    reports4.pool, Config.pathsPerChannel] at ran
  refine ⟨fun out => ?_, fun inR long => ?_, fun inR aligned unnamed => ?_, fun inR aligned named stale => ?_,
    fun inR aligned named new lacking => ?_, fun p inR aligned named new few hp unused lowest room => ?_⟩
  · rw [ran, if_pos out]
    rfl
  · rw [ran, if_neg (not_not.mpr inR), if_pos long]
    rfl
  · rw [ran, if_neg (not_not.mpr inR), if_neg (Nat.not_lt.mpr aligned), if_pos unnamed]
    rfl
  · rw [ran, if_neg (not_not.mpr inR), if_neg (Nat.not_lt.mpr aligned), if_neg named, if_pos stale]
    rfl
  · rw [ran, if_neg (not_not.mpr inR), if_neg (Nat.not_lt.mpr aligned), if_neg named, if_neg (not_not.mpr new)]
    by_cases crowded : 4 ≤ (s.channel channel.toNat).paths.length
    · rw [if_pos crowded]
      rfl
    · rw [if_neg crowded]
      rcases free : s.lowestUnused with _ | p
      · rfl
      · have short : s.pool.free.length < length.toNat := by
          rcases lacking with many | used | short
          · exact absurd many crowded
          · rw [s.lowestUnused_none used] at free
            cases free
          · exact short
        dsimp only
        rw [if_pos short]
        rfl
  · rw [ran, if_neg (not_not.mpr inR), if_neg (Nat.not_lt.mpr aligned), if_neg named, if_neg (not_not.mpr new),
      if_neg (Nat.not_le.mpr few), s.lowestUnused_eq p hp unused lowest]
    dsimp only
    rw [if_neg (Nat.not_lt.mpr room), State.allocate_eq, reports4.pool, reports4.paths, reports4.seed, reports4.channels, reports4.channel]
    rfl

theorem State.putPath_path (s : State) (p : Nat) : s.putPath p (s.path p) = s := by
  refine (?_ : s.setPaths _ = s)
  by_cases hp : p < s.paths.length
  · simp [State.setPaths, State.path, hp]
  · rw [List.set_eq_of_length_le (by omega)]
    rfl

theorem State.readbackOf_iff {s : State} {p : Nat} : s.readbackOf p = true ↔ ∃ rb, s.control.streamer = .streaming rb ∧ rb.path = p := by
  unfold State.readbackOf
  cases s.control.streamer <;> simp

theorem abortedWhere_none {test : Readback → Bool} {x : Streamer} (h : ∀ rb, x = .streaming rb → test rb = false) :
    abortedWhere test x = x := by
  cases x with
  | streaming rb => simp [abortedWhere, h rb rfl]
  | idle => rfl
  | closing rb => rfl

theorem State.setStreamer_self (s : State) : s.setStreamer s.control.streamer = s := rfl

theorem State.clearPending_channel (s : State) (c : Nat) :
    (s.clearPending c).channel c =
      { s.channel c with comparison := { (s.channel c).comparison with pendingPromote := false } } := by
  unfold State.clearPending State.putComparison
  rw [State.channel_putChannel]
  split
  · rfl
  · next beyond =>
    rw [State.channel, List.getD_eq_default _ _ (by simpa using beyond)]
    rfl

/-- The abort of a readback of a path whose owner channel has no pending promote: of the record only the read-held flag can change (R152). -/
theorem State.abortReadbackOf_eq (s : State) (p c : Nat) (owner : (s.path p).owner = some c)
    (pending : (s.channel c).comparison.pendingPromote = false) :
    ∃ held, (if s.readbackOf p then s.abortReadback else s) =
      (s.setStreamer (abortedWhere (fun rb => rb.path == p) s.control.streamer)).putPath p { s.path p with readHeld := held } := by
  by_cases reading : s.readbackOf p = true
  · obtain ⟨rb, streaming, rfl⟩ := State.readbackOf_iff.mp reading
    have aborted : s.abortReadback = (s.setStreamer (.closing rb)).finishReadback rb := by rw [State.abortReadback, streaming]
    rw [if_pos reading, aborted, streaming, abortedWhere, if_pos (by simp)]
    rcases (s.setStreamer (.closing rb)).finishReadback_cases rb with ⟨finished, _⟩ | ⟨c', owner', pending', _⟩
    · rw [finished]
      unfold State.unheld
      split
      · exact ⟨false, rfl⟩
      · exact ⟨(s.path rb.path).readHeld, ((s.setStreamer (.closing rb)).putPath_path rb.path).symm⟩
    · obtain rfl : c = c' := Option.some.inj (owner.symm.trans owner')
      exact absurd pending' (by simp [show (s.setStreamer (.closing rb)).channel c = s.channel c from rfl, pending])
  · have other : abortedWhere (fun rb => rb.path == p) s.control.streamer = s.control.streamer := abortedWhere_none fun rb streaming => by
      simpa using fun e => reading (State.readbackOf_iff.mpr ⟨rb, streaming, e⟩)
    rw [if_neg reading, other, State.setStreamer_self]
    exact ⟨(s.path p).readHeld, (s.putPath_path p).symm⟩

/-- The work in flight on a path ended: its owner's pending promote is cleared before the abort, so the abort applies none (R15, R75). -/
theorem State.endWorkOn_eq (s : State) (p c : Nat) (owner : (s.path p).owner = some c) :
    ∃ held, s.endWorkOn p =
      (((s.clearPending c).setQueue (s.seed.queue.filter fun q => q.path != p)).setStreamer
        (abortedWhere (fun rb => rb.path == p) s.control.streamer)).putPath p { s.path p with readHeld := held } := by
  unfold State.endWorkOn
  rw [owner]
  exact State.abortReadbackOf_eq _ p c owner (congrArg (fun ch => ch.comparison.pendingPromote) (s.clearPending_channel c))

/-- RELEASE PATH carried out, field by field (R5, R15, R16). -/
theorem State.release_eq (s : State) (p c : Nat) (owner : (s.path p).owner = some c) :
    s.release p =
      { s with
        pool := { s.pool with free := s.pool.free ++ (s.path p).chain }
        paths := s.paths.set p PathRecord.unused
        seed := { s.seed with queue := s.seed.queue.filter fun q => q.path != p }
        channels := s.channels.set c
          { s.channel c with
            paths := (s.channel c).paths.filter fun q => q != p
            comparison := comparisonReset (s.channel c).comparison false }
        control := { s.control with streamer := abortedWhere (fun rb => rb.path == p) s.control.streamer } } := by
  obtain ⟨held, ended⟩ := s.endWorkOn_eq p c owner
  have chain : ((s.endWorkOn p).path p).chain = (s.path p).chain := by
    rw [ended, State.path_putPath]
    split <;> rfl
  have owner' : ((s.endWorkOn p).path p).owner = some c := by
    rw [ended, State.path_putPath, ← owner]
    split <;> rfl
  have channel : (s.endWorkOn p).channel c = (s.clearPending c).channel c := by rw [ended]; rfl
  have released : s.release p = (((((s.endWorkOn p).returnFree (s.path p).chain).putPath p PathRecord.unused).putChannel c
      { (s.endWorkOn p).channel c with paths := ((s.endWorkOn p).channel c).paths.filter (· != p) }).resetComparisonFully c) := by
    unfold State.release
    dsimp only
    rw [owner', chain]
    rfl
  rw [released, State.putChannel_resetComparisonFully, channel, State.clearPending_channel, ended]
  exact congrArg₂ (fun channels paths =>
    { s with
      pool := { s.pool with free := s.pool.free ++ (s.path p).chain }
      paths := paths
      seed := { s.seed with queue := s.seed.queue.filter fun q => q.path != p }
      channels := channels
      control := { s.control with streamer := abortedWhere (fun rb => rb.path == p) s.control.streamer } })
    (List.set_set ..) (List.set_set ..)

/-- Settles O39: the request filtered out, the abort without a promotion, then the record and its list (R15 before R16). -/
theorem releasePathEffect : Obligations.ReleasePathEffect := by
  intro s tag path accepting
  have ran : exec (.releasePath tag path) s = _ := exec_taken accepting rfl
  refine ⟨fun out => ?_, fun inRange unused => ?_, fun c inRange used owner => ?_⟩
  · rw [ran, if_pos out]
    rfl
  · rw [ran, if_neg (Nat.not_lt.mpr inRange), if_pos unused]
    rfl
  · rw [ran, if_neg (Nat.not_lt.mpr inRange), if_neg used, State.release_eq s _ c owner]
    rfl

theorem State.resetOwner_eq (s : State) (p c : Nat) (owner : (s.path p).owner = some c) :
    s.resetOwner p = s.putChannel c { s.channel c with comparison := comparisonReset (s.channel c).comparison false } := by
  rw [State.resetOwner, owner]
  exact s.resetComparisonFully_eq c

/-- A truncation carried out, field by field (R19). -/
theorem State.truncate_eq (s : State) (p n c : Nat) (owner : (s.path p).owner = some c) :
    s.truncate p n =
      { s with
        pool := { s.pool with free := s.pool.free ++ (s.path p).chain.drop n }
        paths := s.paths.set p { s.path p with chain := (s.path p).chain.take n }
        channels := s.channels.set c { s.channel c with comparison := comparisonReset (s.channel c).comparison false } } := by
  refine State.resetOwner_eq _ p c ?_
  rw [State.path_putPath, ← owner]
  split <;> rfl

/-- An extension carried out, field by field (R20). -/
theorem State.extend_eq (s : State) (p n c : Nat) (owner : (s.path p).owner = some c) :
    s.extend p n =
      { s with
        pool := { s.pool with free := s.pool.free.drop (n - (s.path p).chain.length) }
        paths := s.paths.set p
          { s.path p with chain := (s.path p).chain ++ s.pool.free.take (n - (s.path p).chain.length), state := .seeding }
        seed :=
          { s.seed with
            queue := s.seed.queue ++
              [{ path := p, kind := .clear, first := (s.path p).chain.length, count := n - (s.path p).chain.length, done := 0 }] }
        channels := s.channels.set c { s.channel c with comparison := comparisonReset (s.channel c).comparison false } } := by
  unfold State.extend
  dsimp only
  rw [State.resetOwner_eq _ p c]
  · rfl
  · show ((State.putPath _ p _).path p).owner = some c
    rw [State.path_putPath, ← owner]
    split <;> rfl

/-- Settles O40: the checks of R18 one after another, then a truncation or an extension of the state that the reference's check leaves. -/
theorem resizePathEffect : Obligations.ResizePathEffect := by
  intro s tag path length accepting r result reading
  have ran : result = _ := exec_taken accepting rfl
  refine ⟨fun out => ?_, fun inRange unused => ?_, fun inRange used busy => ?_, fun c k inRange ready idle owner reference => ?_⟩
  · rw [ran, if_pos out]
    rfl
  · rw [ran, if_neg (Nat.not_lt.mpr inRange), if_pos unused]
    rfl
  · rw [ran, if_neg (Nat.not_lt.mpr inRange), if_neg used, if_pos (busy.imp_right State.readbackOf_iff.mpr)]
    rfl
  · intro good read channels
    have used : (s.path path.toNat).state ≠ .unused := fun e => by simp [show r.state = .unused from e] at ready
    have free : ¬((s.path path.toNat).state = .seeding ∨ s.readbackOf path.toNat = true) := by
      rintro (e | e)
      · simp [show r.state = .seeding from e] at ready
      · exact idle (State.readbackOf_iff.mp e)
    have reports : Reports s read := s.checkReference_reports k tag
    have checked : s.checkReference k tag = read := rfl
    have ranges : (length.toNat < 1 ∨ 448 < length.toNat ∨ 512 < (s.reference k).bulk + length.toNat) ↔ ¬good := by
      show _ ↔ ¬(_ ∧ _)
      omega
    rw [if_neg (Nat.not_lt.mpr inRange), if_neg used, if_neg free] at ran
    simp only [show (s.path path.toNat).reference = some k from reference, Option.map_some, Option.getD_some, ranges, Pool.freeCount,
      PathRecord.length, checked] at ran
    have owner' : (read.path path.toNat).owner = some c := by rw [reports.path]; exact owner
    refine ⟨fun out => ?_, fun inR lacking => ?_, fun inR equal => ?_, fun inR shorter => ?_, fun inR longer room => ?_⟩
    · rw [ran, if_pos out]
      rfl
    · rw [ran, if_neg (not_not.mpr inR), if_pos lacking]
      rfl
    · rw [ran, if_neg (not_not.mpr inR), if_neg (by show ¬_ < _ - r.chain.length; omega), if_pos equal]
      rfl
    · rw [ran, if_neg (not_not.mpr inR), if_neg (by show ¬_ < _ - r.chain.length; omega), if_neg (by show ¬_ = r.chain.length; omega),
        if_pos shorter, State.truncate_eq _ _ _ c owner', reports.pool, reports.paths, reports.channels, reports.channel, reports.path]
      rfl
    · rw [ran, if_neg (not_not.mpr inR), if_neg (by show ¬_ < _ - r.chain.length; omega), if_neg (by show ¬_ = r.chain.length; omega),
        if_neg (by show ¬_ < r.chain.length; omega), State.extend_eq _ _ _ c owner', reports.pool, reports.paths, reports.channels,
        reports.seed, reports.channel, reports.path]
      rfl

theorem SetId.byte_eq (x : SetId) : x.byte = if x = .a then 0 else 1 := by cases x <;> rfl

/-- Settles O41: each command's checks and payload are those of its meaning, read in the state it finds. -/
theorem setStepAndPoolReads : Obligations.SetStepAndPoolReads := by
  refine ⟨fun s tag path step accepting => ?_, fun s tag accepting => ⟨fun path => ?_, ?_, fun selector start count => ?_⟩⟩
  · refine Eq.trans (exec_taken (i := .setStep tag path step) accepting rfl) ?_
    split
    · rfl
    · split
      · rfl
      · split <;> rfl
  · intro r
    refine Eq.trans (exec_taken (i := .readPathRecord tag path) accepting rfl) ?_
    split
    · rfl
    · rw [← SetId.byte_eq]
      rfl
  · exact Eq.trans (exec_taken (i := .readPool tag) accepting rfl) rfl
  · intro chain entries
    refine Eq.trans (exec_taken (i := .readChain tag selector start count) accepting rfl) ?_
    have ranges : ((63 < selector.toNat ∧ selector ≠ 0xFE) ∨ count.toNat < 1 ∨ 96 < count.toNat) =
        (selector ≠ 0xFE ∧ 63 < selector.toNat ∨ count.toNat < 1 ∨ 96 < count.toNat) := by rw [and_comm]
    simp only [ranges, chain, entries]
    split
    · rfl
    · split
      · rfl
      · split
        · split <;> rfl
        · split <;> rfl

end Sys2Proof.Machine
end

section
/-! The operations on the paths, one obligation each: a law that survives them survives channel blocks, windows and seed steps. -/

namespace Sys2Proof.Machine

open Sys2Proof.Safety

/-! ### One obligation per operation on the paths -/

/-- No path of the channel is SEEDING. -/
def State.Settled (s : State) (c : Nat) : Prop := ∀ p ∈ (s.channel c).paths, (s.path p).state ≠ .seeding

/-- What a law of the paths has to survive: each operation on path table, path lists, pool, seed queue, pending promotes, readback and bulk
delays, under the checks that stand before it. -/
structure PathLaw (P : State → Prop) : Prop where
  /-- It holds after power-on. -/
  reset : P State.reset
  /-- It reads nothing but what `SamePaths` names. -/
  same : ∀ {s t}, SamePaths s t → P s → P t
  /-- FREEZE CHANNEL (R62). -/
  clearPending : ∀ s c, P s → P (s.clearPending c)
  /-- ALLOCATE PATH, every check of R13 passed. -/
  allocate : ∀ s p c r n step, P s → p < 64 → (s.path p).state = .unused → c < 24 → (s.reference r).bulk + n ≤ 512 →
    (∀ q ∈ (s.channel c).paths, (s.path q).reference ≠ some r) → (s.channel c).paths.length < 4 → 1 ≤ n → n ≤ 448 →
    n ≤ s.pool.free.length → P (s.allocate p c r n step)
  /-- RELEASE PATH of a path in use (R15). -/
  release : ∀ s p, P s → (s.path p).state ≠ .unused → P (s.release p)
  /-- RESIZE PATH, every check of R18 passed, to a smaller length (R19). -/
  truncate : ∀ s p n, P s → (s.path p).state = .ready → s.readbackOf p = false → 1 ≤ n → n < (s.path p).length → P (s.truncate p n)
  /-- RESIZE PATH, every check of R18 passed, to a larger length (R20). -/
  extend : ∀ s p n, P s → (s.path p).state = .ready → s.readbackOf p = false → n ≤ 448 →
    (∀ k, (s.path p).reference = some k → (s.reference k).bulk + n ≤ 512) → (s.path p).length < n →
    n - (s.path p).length ≤ s.pool.free.length → P (s.extend p n)
  /-- SET STEP of a path in use (R21). -/
  setStep : ∀ s p n, P s → (s.path p).state ≠ .unused → P (s.putPath p { s.path p with step := n })
  /-- WRITE REFERENCE: a new bulk delay that the paths in use fit (R36, R37). -/
  bulk : ∀ {s t}, SamePaths { s with references := t.references } t → (∀ p ∈ s.paths, p.state ≠ .unused → ∀ k, p.reference = some k →
    (t.reference k).bulk = (s.reference k).bulk ∨ (t.reference k).bulk + p.length ≤ 512) → P s → P t
  /-- A promotion or a reseed, no path of the channel SEEDING (R74, R76). -/
  copies : ∀ s flip c m, P s → c < s.channels.length → s.Settled c → m.pendingPromote = false →
    P ((s.beginCopies flip c).putComparison c m)
  /-- A promotion deferred under a live readback (R73). -/
  defer : ∀ s c m, P s → c < s.channels.length → s.Settled c → (s.channel c).paths.any s.liveReadbackOf = true →
    P (s.putComparison c m)
  /-- READ PATH, every check of R149 passed (R150). -/
  startReadback : ∀ s rb, P s → s.control.streamer = .idle → rb.path < 64 → (s.path rb.path).state ≠ .unused → 1 ≤ rb.remaining →
    rb.next + rb.remaining ≤ (s.path rb.path).length → P (s.startReadback rb)
  /-- The grant of a DATA packet that is not the last (R151). -/
  advanceReadback : ∀ s rb, P s → s.control.streamer = .streaming rb → 1 < rb.remaining →
    P (s.setStreamer (.streaming { rb with next := rb.next + 1, remaining := rb.remaining - 1 }))
  /-- The grant of the last DATA packet, or an abort (R151, R152). -/
  endReadback : ∀ s rb x, P s → s.control.streamer = .streaming rb → x.readback = none → P ((s.setStreamer x).finishReadback rb)
  /-- RESET ADAPTATION (R91, R92). -/
  resetAdaptation : ∀ s, P s → P s.resetAdaptation
  /-- The request in service completes (R88). -/
  complete : ∀ s q rest, P s → s.seed.queue = q :: rest → P ((s.setQueue rest).putPath q.path { s.path q.path with state := .ready })
  /-- The request in service goes on (R86). -/
  progress : ∀ s q rest, P s → s.seed.queue = q :: rest → q.done + 1 < q.count → P (s.setQueue ({ q with done := q.done + 1 } :: rest))

section
variable {P : State → Prop}

/-! ### Channel blocks and windows -/

theorem PathLaw.raise (K : PathLaw P) {s : State} (h : P s) (c : FaultClass) (x : Subject) (t : Option Byte) : P (s.raise c x t) :=
  K.same (s.raise_samePaths c x t) h

theorem PathLaw.promote (K : PathLaw P) {s : State} (h : P s) {c : Nat} (hc : c < s.channels.length) (settled : s.Settled c) :
    P (s.applyPromotion c) := K.copies s true c _ h hc settled rfl

theorem PathLaw.reseed (K : PathLaw P) {s : State} (h : P s) {c : Nat} (hc : c < s.channels.length) (settled : s.Settled c) :
    P (s.applyReseed c) := by
  unfold State.applyReseed
  simp only
  split
  · exact K.raise (K.copies s false c _ h hc settled rfl) _ _ _
  · exact K.copies s false c _ h hc settled rfl

theorem PathLaw.promotionDue (K : PathLaw P) {s : State} (h : P s) {c : Nat} (hc : c < s.channels.length) (settled : s.Settled c) :
    P (s.promotionDue c) := by
  unfold State.promotionDue
  split
  · next reading => exact K.defer s c _ h hc settled reading
  · exact K.promote h hc settled

theorem SamePaths.settled {s t : State} (h : SamePaths s t) {c : Nat} (k : s.Settled c) : t.Settled c := by
  intro p hp
  rw [h.lists c] at hp
  rw [h.path p]
  exact k p hp

theorem PathLaw.judgeWindow (K : PathLaw P) {s : State} (h : P s) {c : Nat} (hc : c < s.channels.length) (settled : s.Settled c) :
    P (s.judgeWindow c) := by
  have kept : SamePaths s
      (s.putComparison c (((s.channel c).comparison.withResult s.comparator).withStreaks s.comparator)) := by
    refine s.putComparison_samePaths c _ ?_
    unfold ComparisonState.withStreaks
    repeat' split
    all_goals rfl
  have hc' := kept.channelCount.symm ▸ hc
  unfold State.judgeWindow
  simp only
  split
  · exact K.promotionDue (K.same kept h) hc' (kept.settled settled)
  · split
    · exact K.reseed (K.same kept h) hc' (kept.settled settled)
    · exact K.same kept h

/-- Stage 7: a block that finds a path SEEDING disturbs its window, whose result is then NONE (R69, R70). -/
theorem PathLaw.accumulateWindow (K : PathLaw P) {s : State} (h : P s) {c : Nat} (hc : c < s.channels.length) (x : WindowShare)
    (settled : x.disturbed = false → s.Settled c) : P (s.accumulateWindow c x) := by
  have kept : SamePaths s (s.putComparison c ((s.channel c).comparison.accumulate x)) := s.putComparison_samePaths c _ rfl
  have restarted : ∀ t : State, P t → P (t.putComparison c (t.channel c).comparison.windowRestarted) := fun t ht =>
    K.same (t.putComparison_samePaths c _ rfl) ht
  unfold State.accumulateWindow State.endWindow
  simp only
  split
  · refine restarted _ ?_
    split
    · exact K.same kept h
    · next taken =>
      refine K.judgeWindow (K.same kept h) (kept.channelCount.symm ▸ hc) (kept.settled (settled ?_))
      simp [Channel.windowNone, State.putComparison, State.channel_putChannel, hc, ComparisonState.accumulate] at taken
      obtain ⟨⟨_, _, undisturbed⟩, _⟩ := taken
      exact undisturbed
  · exact K.same kept h

theorem State.settled_of_seedingIn {s : State} {c : Nat} (h : s.seedingIn c = false) : s.Settled c := by
  simpa [State.seedingIn, State.Settled] using h

/-- Stages 2 to 7 keep a law: raises, adaptation and the channel's working fields leave the paths alone, and stage 7 knows whether the block
found a path SEEDING (R48, R69). -/
theorem PathLaw.cancelBlock (K : PathLaw P) {s : State} (h : P s) {c : Nat} (hc : c < s.channels.length) (clipped : Bool) (capture : Slot) :
    P (s.cancelBlock c clipped capture).2 := by
  have stages : ∀ (frozen : Bool) (action : Action) (residual : List Int) (reads : List PathRead) (faults entries : List (FaultClass × Subject))
      (ch : Channel) (share : WindowShare), ch.paths = (s.channel c).paths →
      ch.comparison.pendingPromote = (s.channel c).comparison.pendingPromote → share.disturbed = (s.seedingIn c || s.heldIn c) →
      P (((reads.foldl (fun s r => s.adaptPath frozen action residual r) ((s.raiseAll faults).raiseAll entries)).putChannel c
        ch).accumulateWindow c share) := by
    intro frozen action residual reads faults entries ch share sameList samePending found
    have adapted := ((s.raiseAll_reports faults).trans (State.raiseAll_reports _ entries)).samePaths.trans
      (SamePaths.foldl _ (fun s r => s.adaptPath_samePaths frozen action residual r) reads _)
    have kept := adapted.trans (State.putChannel_samePaths _ c ch (sameList.trans (adapted.lists c).symm)
      (samePending.trans (adapted.pending c).symm))
    refine K.accumulateWindow (K.same kept h) (kept.channelCount.symm ▸ hc) share fun undisturbed => kept.settled ?_
    exact State.settled_of_seedingIn (Bool.or_eq_false_iff.mp (found.symm.trans undisturbed)).1
  exact stages _ _ _ _ _ _ _ _ rfl rfl rfl

theorem PathLaw.channelBlock (K : PathLaw P) (op : OpState) (action : SafeAction) (arrived slots : List Slot) {s : State} (h : P s) (c : Nat) :
    P (State.channelBlock op action arrived (slots, s) c).2 := by
  unfold State.channelBlock
  simp only
  split
  · exact K.raise h _ _ _
  · split
    · exact h
    · next k named =>
      have tested := s.clipTest_samePaths c (isClipped (arrived.getD k silence))
      split
      · exact K.cancelBlock (K.same tested h) (tested.channelCount.symm ▸ s.channel_lt c k named) _ _
      · exact K.same tested h

theorem PathLaw.windowEnd (K : PathLaw P) {s : State} (h : P s) (c capture live background : Nat) {t : State}
    (e : execWindowEnd c capture live background s = .next t) : P t := by
  unfold execWindowEnd at e
  obtain rfl := Host.Outcome.next.inj e
  split
  · next performed =>
    simp only [State.performsStages, Bool.and_eq_true, Option.isSome_iff_exists] at performed
    obtain ⟨⟨⟨_, k, named⟩, _⟩, _⟩ := performed
    exact K.accumulateWindow h (s.channel_lt c k named) _ fun undisturbed =>
      State.settled_of_seedingIn (Bool.or_eq_false_iff.mp undisturbed).1
  · exact h

/-! ### The seed engine -/

theorem PathLaw.seedOne (K : PathLaw P) {s : State} (h : P s) : P s.seedOne := by
  unfold State.seedOne
  split
  · exact h
  · next q rest hq =>
    have written := s.rewritePartition_samePaths q
    have hq' := written.queue.trans hq
    have h' := K.same written h
    simp only
    split
    · have completed := K.complete _ q rest h' hq'
      unfold State.completeRequest
      simp only
      split
      · exact K.same (State.postNotice_reports _ _ _).samePaths completed
      · exact completed
    · next more => exact K.progress _ q rest h' hq' (by omega)

theorem PathLaw.seedRun (K : PathLaw P) (n : Nat) {s : State} (h : P s) : P (State.seedRun n s) := by
  induction n generalizing s with
  | zero => exact h
  | succ n ih => exact ih (K.seedOne h)

theorem PathLaw.takeSeedStep (K : PathLaw P) {s : State} (h : P s) : P s.takeSeedStep := by
  unfold State.takeSeedStep State.stepSeed
  split
  · have ungranted := K.same (s.setSeed_samePaths { s.seed with granted := false } rfl) h
    split
    · exact K.seedRun _ ungranted
    · exact ungranted
  · exact h

end

end Sys2Proof.Machine
end

section
/-! A law that survives the operations on the paths survives every command. -/

namespace Sys2Proof.Machine

open Sys2Proof.Safety

section
variable {P : State → Prop}

/-! ### Commands -/

theorem State.done_state (s : State) (p : List Byte) : (s.done p).state = s := rfl

/-- A command keeps a law that its execution keeps (R144). -/
theorem PathLaw.take (K : PathLaw P) {s : State} (h : P s) (code tag : Byte) (f : State → Answer) (hf : P (f s).state) :
    P (s.take code tag f) := by
  unfold State.take
  split
  · exact K.raise h _ _ _
  · exact K.same (State.setControl_samePaths _ _ rfl) hf

theorem State.liveReadbackOf_iff {s : State} {p : Nat} :
    s.liveReadbackOf p = true ↔ ∃ rb, s.control.streamer = .streaming rb ∧ rb.path = p ∧ rb.set = .live := by
  unfold State.liveReadbackOf
  cases s.control.streamer <;> simp

theorem SamePaths.streaming {s t : State} (h : SamePaths s t) (rb : Readback) :
    t.control.streamer = .streaming rb ↔ s.control.streamer = .streaming rb := by
  rw [← Streamer.readback_eq_some, ← Streamer.readback_eq_some, h.readback]

theorem SamePaths.readbackOf {s t : State} (h : SamePaths s t) (p : Nat) : t.readbackOf p = s.readbackOf p := by
  rw [Bool.eq_iff_iff]
  simp only [State.readbackOf_iff, h.streaming]

theorem PathLaw.takeAllocatePath (K : PathLaw P) {s : State} (h : P s) (tag channel reference : Byte) (length : Half) (step : Byte) :
    P (s.takeAllocatePath tag channel reference length step) := by
  refine K.take h _ _ _ ?_
  have read2 := s.checkReference_samePaths reference.toNat tag
  have read4 := read2.trans (State.checkChannel_samePaths (s.checkReference reference.toNat tag) channel.toNat tag)
  split
  · exact h
  · next inRange =>
    dsimp only
    split
    · exact K.same read2 h
    · next aligned =>
      split
      · exact K.same read2 h
      · split
        · exact K.same read4 h
        · next fresh =>
          split
          · exact K.same read4 h
          · next few =>
            split
            · exact K.same read4 h
            · next p lowest =>
              split
              · exact K.same read4 h
              · next room =>
                have unused := List.find?_some lowest
                have inTable := List.mem_of_find?_eq_some lowest
                refine K.allocate _ p _ _ _ _ (K.same read4 h) (by simpa [Config.numPaths] using inTable) (by simpa using unused)
                  (by omega) ?_ ?_ (by simpa [Config.pathsPerChannel] using few) (by omega) (by omega) (by simpa [Pool.freeCount] using room)
                · rw [(State.checkChannel_reports _ _ _).samePaths.bulk]
                  omega
                · simpa using fresh

theorem PathLaw.takeReleasePath (K : PathLaw P) {s : State} (h : P s) (tag path : Byte) : P (s.takeReleasePath tag path) := by
  refine K.take h _ _ _ ?_
  split
  · exact h
  · split
    · exact h
    · next used => exact K.release s _ h used

theorem PathLaw.takeResizePath (K : PathLaw P) {s : State} (h : P s) (tag path : Byte) (length : Half) :
    P (s.takeResizePath tag path length) := by
  refine K.take h _ _ _ ?_
  split
  · exact h
  · split
    · exact h
    · next used =>
      split
      · exact h
      · next idle =>
        push Not at idle
        have ready : (s.path path.toNat).state = .ready := by
          cases e : (s.path path.toNat).state
          · exact absurd e used
          · exact absurd e idle.1
          · rfl
        dsimp only
        split
        · exact h
        · next good =>
          split
          · exact h
          · next room =>
            split
            · exact h
            · next differs =>
              have resized : ∀ t, SamePaths s t → P (if length.toNat < (s.path path.toNat).length then
                  (t.truncate path.toNat length.toNat).done [] else (t.extend path.toNat length.toNat).done []).state := by
                intro t checked
                rw [← checked.path path.toNat] at ready differs room good ⊢
                have free : t.readbackOf path.toNat = false := by rw [checked.readbackOf]; simpa using idle.2
                split
                · next shorter => exact K.truncate t _ _ (K.same checked h) ready free (by omega) shorter
                · next longer =>
                  refine K.extend t _ _ (K.same checked h) ready free (by omega) (fun k hk => ?_) (by omega) ?_
                  · rw [checked.bulk]
                    simp only [hk, Option.map_some, Option.getD_some] at good
                    omega
                  · rw [checked.free]
                    simpa [Pool.freeCount] using room
              cases (s.path path.toNat).reference with
              | none => exact resized s (SamePaths.refl s)
              | some k => exact resized _ (s.checkReference_samePaths k tag)

theorem PathLaw.takeSetStep (K : PathLaw P) {s : State} (h : P s) (tag path step : Byte) : P (s.takeSetStep tag path step) := by
  refine K.take h _ _ _ ?_
  split
  · exact h
  · split
    · exact h
    · next used =>
      split
      · exact h
      · exact K.setStep s _ _ h used

theorem State.checkOtherReferences_samePaths (s : State) (r : Nat) (tag : Byte) : SamePaths s (s.checkOtherReferences r tag) :=
  (s.checkOtherReferences_reports r tag).samePaths
theorem State.checkOtherChannels_samePaths (s : State) (c : Nat) (tag : Byte) : SamePaths s (s.checkOtherChannels c tag) :=
  (s.checkOtherChannels_reports c tag).samePaths

theorem Channel.rebound_paths (ch : Channel) (slot : Option Nat) (mode : ChannelMode) : (ch.rebound slot mode).paths = ch.paths := by
  simp only [Channel.rebound]
  split <;> rfl

theorem Channel.rebound_pending (ch : Channel) (slot : Option Nat) (mode : ChannelMode) :
    (ch.rebound slot mode).comparison.pendingPromote = ch.comparison.pendingPromote := by
  simp only [Channel.rebound]
  split <;> rfl

theorem PathLaw.takeWriteChannel (K : PathLaw P) {s : State} (h : P s) (tag channel slot mode : Byte) :
    P (s.takeWriteChannel tag channel slot mode) := by
  refine K.take h _ _ _ ?_
  split
  · exact h
  · split
    · exact h
    · have others := s.checkOtherChannels_samePaths channel.toNat tag
      dsimp only
      split
      · exact K.same others h
      · refine K.same ((others.trans (State.checkChannel_samePaths _ channel.toNat tag)).trans ?_) h
        exact State.putChannel_samePaths _ _ _ (Channel.rebound_paths _ _ _) (Channel.rebound_pending _ _ _)

theorem State.resetUsers_samePaths (s : State) (r : Nat) : SamePaths s (s.resetUsers r) := by
  refine s.mapChannels_samePaths _ (fun ch => ?_) fun ch => ?_
  · split <;> rfl
  · split <;> rfl

/-- Every reference record written, what else WRITE REFERENCE does leaves the paths alone (R37). -/
theorem State.writeReference_samePaths (s : State) (r : Nat) (slot : Option Nat) (bulk depth : Nat) (threshold : Int) (hangover : Nat) :
    SamePaths { s with references := (s.writeReference r slot bulk depth threshold hangover).references }
      (s.writeReference r slot bulk depth threshold hangover) := by
  unfold State.writeReference
  dsimp only
  have put : ∀ x y z, SamePaths { s with references := x } { s with references := x, histories := y, modulators := z } := fun _ _ _ =>
    .of_eq rfl rfl rfl (fun _ => rfl) rfl rfl rfl
  have reset : ∀ x y z, SamePaths { s with references := x }
      (State.resetUsers { s with references := x, histories := y, modulators := z } r) := fun x y z =>
    (put x y z).trans (State.resetUsers_samePaths _ r)
  split
  · exact reset _ _ _
  · split <;> split
    · exact reset _ _ _
    · exact reset _ _ _
    · exact put _ _ _
    · exact put _ _ _

/-- A bulk delay is as it was, or the one WRITE REFERENCE gives its reference (R37). -/
theorem State.writeReference_bulk (s : State) (r : Nat) (slot : Option Nat) (bulk depth : Nat) (threshold : Int) (hangover k : Nat) :
    ((s.writeReference r slot bulk depth threshold hangover).reference k).bulk = (s.reference k).bulk ∨
      k = r ∧ ((s.writeReference r slot bulk depth threshold hangover).reference k).bulk = bulk := by
  have put : ∀ (t : State) (x : Reference), x.bulk = bulk → t.references = s.references.set r x →
      (t.reference k).bulk = (s.reference k).bulk ∨ k = r ∧ (t.reference k).bulk = bulk := by
    intro t x hx ht
    by_cases hk : k = r
    · subst hk
      by_cases hr : k < s.references.length
      · exact .inr ⟨rfl, by simp [State.reference, ht, hr, hx]⟩
      · exact .inl (by simp [State.reference, ht, hr])
    · exact .inl (by simp [State.reference, ht, List.getElem?_set_ne (Ne.symm hk)])
  unfold State.writeReference
  dsimp only
  split
  · exact put _ _ rfl rfl
  · split <;> split <;> exact put _ _ rfl rfl

theorem PathLaw.takeWriteReference (K : PathLaw P) {s : State} (h : P s) (tag reference slot bulk depth : Byte) (threshold : Half)
    (hangover : Byte) : P (s.takeWriteReference tag reference slot bulk depth threshold hangover) := by
  refine K.take h _ _ _ ?_
  split
  · exact h
  · have others := s.checkOtherReferences_samePaths reference.toNat tag
    dsimp only
    split
    · exact K.same others h
    · split
      · exact K.same others h
      · split
        · exact K.same others h
        · next aligned =>
          have checked := others.trans (State.checkReference_samePaths _ reference.toNat tag)
          refine K.bulk (State.writeReference_samePaths _ _ _ _ _ _ _) (fun p hp used k hk => ?_) (K.same checked h)
          refine (State.writeReference_bulk _ _ _ _ _ _ _ k).imp id fun ⟨hr, e⟩ => ?_
          rw [(State.checkReference_samePaths _ _ _).paths] at hp
          simp only [List.any_eq_true, not_exists, not_and, Bool.and_eq_true, decide_eq_true_eq] at aligned
          rw [State.done_state, e]
          exact Nat.le_of_not_lt (aligned p hp (by simp [PathRecord.uses, used, hk, hr]))

theorem PathLaw.takeFreezeChannel (K : PathLaw P) {s : State} (h : P s) (tag channel value : Byte) :
    P (s.takeFreezeChannel tag channel value) := by
  refine K.take h _ _ _ ?_
  split
  · exact h
  · rcases s.freeze_cases channel.toNat (value = 1) with same | ⟨t, same, cleared⟩
    · exact K.same same h
    · rw [State.done_state, cleared]
      exact K.clearPending t _ (K.same same h)

theorem PathLaw.takeWriteCoeff (K : PathLaw P) {s : State} (h : P s) (tag path : Byte) (index : Half) (taps : Slot) :
    P (s.takeWriteCoeff tag path index taps) := by
  refine K.take h _ _ _ ?_
  split
  · exact h
  · split
    · exact h
    · split
      · exact h
      · split
        · exact h
        · exact K.same (s.writePartition_samePaths _ _) h

theorem ComparisonState.underParams_pending (m : ComparisonState) (old new : ComparatorParams) :
    (m.underParams old new).pendingPromote = m.pendingPromote := by
  simp only [ComparisonState.underParams]
  split <;> split <;> rfl

theorem State.writeComparison_samePaths (s : State) (p : ComparatorParams) (h : p.inRange = true) : SamePaths s (s.writeComparison p) := by
  have kept := s.mapChannels_samePaths (fun ch => { ch with comparison := ch.comparison.underParams s.comparator p }) (fun _ => rfl)
    fun ch => ComparisonState.underParams_pending _ _ _
  simp only [ComparatorParams.inRange, Bool.and_eq_true, decide_eq_true_eq] at h
  obtain ⟨⟨⟨⟨⟨⟨window, _⟩, promoteCount⟩, _⟩, _⟩, _⟩, _⟩ := h
  exact ⟨kept.channelCount, kept.paths, kept.lists, kept.pending, kept.free, kept.bulk, fun _ => ⟨window.1, promoteCount.1⟩, kept.queue,
    kept.readback⟩

theorem PathLaw.takeWriteComparison (K : PathLaw P) {s : State} (h : P s) (tag w pm pc dm dc rl th : Byte) :
    P (s.takeWriteComparison tag w pm pc dm dc rl th) := by
  refine K.take h _ _ _ ?_
  dsimp only
  split
  · next inRange => exact K.same (s.writeComparison_samePaths _ inRange) h
  · exact h

/-- A channel that holds a path is in the table. -/
theorem State.channel_lt_of_paths (s : State) (c : Nat) (h : (s.channel c).paths ≠ []) : c < s.channels.length := by
  by_contra hn
  simp [State.channel, List.getElem?_eq_none (by omega : s.channels.length ≤ c), Channel.initial] at h

theorem PathLaw.takePromoteChannel (K : PathLaw P) {s : State} (h : P s) (tag channel : Byte) :
    P (s.takePromoteChannel tag channel) := by
  refine K.take h _ _ _ ?_
  split
  · exact h
  · dsimp only
    split
    · exact h
    · next some =>
      split
      · exact h
      · next idle =>
        refine K.promote h (s.channel_lt_of_paths _ some) fun p hp => ?_
        simp only [List.any_eq_true, not_exists, not_and, Bool.or_eq_true, not_or, beq_iff_eq] at idle
        exact (idle p hp).1

theorem PathLaw.takeReadPath (K : PathLaw P) {s : State} (h : P s) (tag path set : Byte) (first count : Half) :
    P (s.takeReadPath tag path set first count) := by
  refine K.take h _ _ _ ?_
  split
  · exact h
  · next inRange =>
    split
    · exact h
    · next idle =>
      split
      · exact h
      · next readable =>
        split
        · exact h
        · next within =>
          exact K.startReadback s _ h (by simpa using idle) (by show path.toNat < 64; omega) (fun u => readable (.inl u))
            (by show 1 ≤ count.toNat; omega) (by simpa using within)

theorem PathLaw.abortReadback (K : PathLaw P) {s : State} (h : P s) : P s.abortReadback := by
  unfold State.abortReadback
  split
  · next rb reading => exact K.endReadback s rb _ h reading rfl
  · exact h
  · exact h

theorem PathLaw.takeAbortRead (K : PathLaw P) {s : State} (h : P s) (tag : Byte) : P (s.takeAbortRead tag) := by
  refine K.take h _ _ _ ?_
  split
  · exact K.abortReadback h
  · exact h

theorem PathLaw.takeSetMode (K : PathLaw P) {s : State} (h : P s) (tag mode : Byte) : P (s.takeSetMode tag mode) := by
  have fresh : SamePaths s s.freshChannels := s.mapChannels_samePaths _ (fun _ => rfl) fun _ => rfl
  refine K.take h _ _ _ ?_
  split
  · exact h
  · split
    · exact h
    · split
      · exact h
      · split
        · exact h
        · unfold State.enterMode
          refine K.same (State.enterState_reports _ _ _ _).samePaths ?_
          split
          · exact K.same fresh h
          · exact h

theorem PathLaw.atReset (K : PathLaw P) {t : State} (channels : t.channels = State.reset.channels) (paths : t.paths = State.reset.paths)
    (pool : t.pool = State.reset.pool) (references : t.references = State.reset.references) (comparator : t.comparator = State.reset.comparator)
    (seed : t.seed = State.reset.seed) (readback : t.control.streamer.readback = none) : P t :=
  K.same (.of_eq channels paths (congrArg _ pool) (fun k => by simp [State.reference, references]) comparator (congrArg _ seed) readback) K.reset

theorem PathLaw.takeResetFull (K : PathLaw P) {s : State} (h : P s) (tag : Byte) : P (s.takeResetFull tag) := by
  refine K.take h _ _ _ (K.atReset rfl rfl rfl rfl rfl rfl ?_)
  show s.control.streamer.abortedByReset.readback = none
  cases s.control.streamer <;> rfl

theorem PathLaw.takeRow (K : PathLaw P) {s : State} (h : P s) (row : Instr) : P (s.takeRow row) := by
  have putChannel : ∀ (c : Nat) (x : Channel), x.paths = (s.channel c).paths →
      x.comparison.pendingPromote = (s.channel c).comparison.pendingPromote → P (s.putChannel c x) := fun c x a b =>
    K.same (s.putChannel_samePaths c x a b) h
  have setUnit : ∀ u, P (s.setUnit u) := fun u => K.same (s.setUnit_samePaths u) h
  have setDecision : ∀ d, P (s.setDecision d) := fun d => K.same (s.setDecision_samePaths d) h
  cases row with
  | allocatePath t channel reference length step => exact K.takeAllocatePath h t channel reference length step
  | releasePath t path => exact K.takeReleasePath h t path
  | resizePath t path length => exact K.takeResizePath h t path length
  | setStep t path step => exact K.takeSetStep h t path step
  | readPathRecord t path =>
    change P (s.takeReadPathRecord t path)
    refine K.take h _ _ _ ?_
    split <;> exact h
  | readPool t =>
    change P (s.takeReadPool t)
    exact K.take h _ _ _ h
  | readChain t selector start count =>
    change P (s.takeReadChain t selector start count)
    refine K.take h _ _ _ ?_
    dsimp only
    split
    · exact h
    · split
      · exact h
      · split <;> split <;> exact h
  | writeChannel t channel slot mode => exact K.takeWriteChannel h t channel slot mode
  | readChannel t channel =>
    change P (s.takeReadChannel t channel)
    refine K.take h _ _ _ ?_
    split
    · exact h
    · exact K.same (s.checkChannel_samePaths _ t) h
  | writeReference t reference slot bulk depth threshold hangover =>
    exact K.takeWriteReference h t reference slot bulk depth threshold hangover
  | readReference t reference =>
    change P (s.takeReadReference t reference)
    refine K.take h _ _ _ ?_
    split
    · exact h
    · exact K.same (s.checkReference_samePaths _ t) h
  | freezeChannel t channel value => exact K.takeFreezeChannel h t channel value
  | writeCoeff t path index taps => exact K.takeWriteCoeff h t path index taps
  | writeComparison t w pm pc dm dc rl th => exact K.takeWriteComparison h t w pm pc dm dc rl th
  | promoteChannel t channel => exact K.takePromoteChannel h t channel
  | readChannelStats t channel =>
    change P (s.takeReadChannelStats t channel)
    refine K.take h _ _ _ ?_
    split <;> exact h
  | readSeedQueue t start count =>
    change P (s.takeReadSeedQueue t start count)
    refine K.take h _ _ _ ?_
    split <;> exact h
  | writeDetector t channel near echo debounce hangover =>
    change P (s.takeWriteDetector t channel near echo debounce hangover)
    refine K.take h _ _ _ ?_
    split
    · exact h
    · exact putChannel _ _ rfl rfl
  | writeDecision t bank entry control mask want target =>
    change P (s.takeWriteDecision t bank entry control mask want target)
    refine K.take h _ _ _ ?_
    split
    · exact h
    · split
      · exact h
      · split
        · exact h
        · exact setDecision _
  | readDecision t bank entry =>
    change P (s.takeReadDecision t bank entry)
    refine K.take h _ _ _ ?_
    split
    · exact h
    · dsimp only
      split
      · exact K.raise h _ _ _
      · exact h
  | selectDecisionBank t bank =>
    change P (s.takeSelectDecisionBank t bank)
    refine K.take h _ _ _ ?_
    split
    · exact h
    · exact setDecision _
  | writeSuppressor t channel attack release offset =>
    change P (s.takeWriteSuppressor t channel attack release offset)
    refine K.take h _ _ _ ?_
    split
    · exact h
    · exact putChannel _ _ rfl rfl
  | status t =>
    change P (s.takeStatus t)
    exact K.take h _ _ _ h
  | readPath t path set first count => exact K.takeReadPath h t path set first count
  | abortRead t => exact K.takeAbortRead h t
  | setNotice t fault state path =>
    change P (s.takeSetNotice t fault state path)
    refine K.take h _ _ _ ?_
    split
    · exact h
    · exact K.same (s.setControl_samePaths _ rfl) h
  | setMode t mode => exact K.takeSetMode h t mode
  | readFaults t =>
    change P (s.takeReadFaults t)
    exact K.take h _ _ _ h
  | clearFaults t classes =>
    change P (s.takeClearFaults t classes)
    refine K.take h _ _ _ ?_
    split
    · exact h
    · exact setUnit _
  | writeFaultPolicy t masks severities =>
    change P (s.takeWriteFaultPolicy t masks severities)
    refine K.take h _ _ _ ?_
    split
    · exact h
    · exact setUnit _
  | setSafeAction t action =>
    change P (s.takeSetSafeAction t action)
    refine K.take h _ _ _ ?_
    split
    · exact h
    · exact setUnit _
  | resetFull t => exact K.takeResetFull h t
  | resetAdaptation t =>
    change P (s.takeResetAdaptation t)
    exact K.take h _ _ _ (K.resetAdaptation s h)
  | powerOn | resetPinAssert | resetPin | outboundGoodArrival | outboundBadArrival | blockIntervalTimerExpiry | lockAcquired | lockLoss
  | coreSilence | roomSilenceAdvance | roomSilence | inboundGoodArrival | inboundBadArrival | inboundBlockTransmit | seedStep | windowEnd
  | captureClip | activityHangoverExpiry | nearHangoverExpiry => exact h

end
end Sys2Proof.Machine
end

section
/-! A law that survives the operations on the paths survives every row, and so every step. -/

namespace Sys2Proof.Machine

open Sys2Proof.Safety

section
variable {P : State → Prop}

/-! ### Rows -/

theorem PathLaw.takeCommand (K : PathLaw P) {s : State} (h : P s) (code tag : Byte) (payload : List Byte) :
    P (s.takeCommand code tag payload) := by
  unfold State.takeCommand
  split
  · exact K.take h _ _ _ h
  · split
    · exact K.take h _ _ _ h
    · split
      · exact K.take h _ _ _ h
      · exact K.takeRow h _

theorem State.whilePortsRun_keeps {s : State} (h : P s) (f : State → State) (hf : P (f s)) : P (s.whilePortsRun f) := by
  unfold State.whilePortsRun
  split
  · exact h
  · exact hf

theorem PathLaw.period (K : PathLaw P) {s t : State} (h : P s) (w : PeriodWork s t) : P t := K.same w.samePaths h

theorem PathLaw.outboundGood (K : PathLaw P) {s : State} (h : P s) (seq flags : Byte) (slots : List Slot) (window : List Byte)
    (stepFirst : Bool) : P (s.outboundGood seq flags slots window stepFirst) := by
  have opened : P (s.openPeriod stepFirst) := by
    unfold State.openPeriod
    split
    · exact K.takeSeedStep (K.period h s.markPeriod_periodWork)
    · exact K.period h s.markPeriod_periodWork
  have tapped := K.period opened ((State.judgeHeader_periodWork _ seq).trans (State.tapAll_spec _ slots).1)
  have consumed : ∀ t : State, P t → ∀ c, P (t.takeConsumed c) := fun t ht c => by
    cases c with
    | none => exact ht
    | some c => exact K.takeCommand ht _ _ _
  unfold State.outboundGood
  refine consumed _ (K.same (State.setPorts_samePaths _ _) ?_) _
  split
  · exact K.raise tapped _ _ _
  · exact tapped

theorem PathLaw.outboundBad (K : PathLaw P) {s : State} (h : P s) (slots : List Slot) : P (s.outboundBad slots) := by
  have numbered : P (s.raise .headerCrc (.port .core) none).advanceSeq := K.same (State.setPorts_samePaths _ _) (K.raise h _ _ _)
  have missed : ∀ t, P t → P (t.lostPeriod.silentAppendAll) := fun t ht =>
    K.period ht (t.lostPeriod_periodWork.trans (State.silentAppendAll_periodWork _))
  unfold State.outboundBad
  refine K.same (State.setPorts_samePaths _ _) ?_
  by_cases running : (s.raise .headerCrc (.port .core) none).advanceSeq.ports.timerRunning = true
  · simpa only [running, if_true] using missed _ numbered
  · simpa only [running, Bool.false_eq_true, if_false] using numbered

theorem PathLaw.timerExpires (K : PathLaw P) {s : State} (h : P s) : P s.timerExpires := by
  unfold State.timerExpires
  split
  · refine K.same (State.setPorts_samePaths _ _) (K.period ?_ ((State.lostPeriod_periodWork _).trans (State.silentAppendAll_periodWork _)))
    exact K.same (s.setPorts_samePaths _) h
  · exact h

theorem PathLaw.grantData (K : PathLaw P) {s : State} (h : P s) {rb : Readback} (reading : s.control.streamer = .streaming rb) :
    P (s.grantData rb).2 := by
  have read : SamePaths s (if (s.readbackSource rb).upset then s.raise .coeffParity (.path rb.path rb.next) none else s) := by
    split
    · exact s.raise_samePaths _ _ _
    · exact SamePaths.refl s
  have reading' := (read.streaming rb).mpr reading
  unfold State.grantData
  dsimp only
  split
  · exact K.endReadback _ rb _ (K.same read h) reading' rfl
  · next more => exact K.advanceReadback _ rb (K.same read h) reading' (by simpa using more)

theorem PathLaw.grantOwn (K : PathLaw P) {s : State} (h : P s) : P s.grantOwn.2 := by
  unfold State.grantOwn
  split
  · exact K.same (s.setControl_samePaths _ rfl) h
  · exact K.same (s.setControl_samePaths _ rfl) h
  · next reading => exact K.grantData h reading
  · next closing => exact K.same (s.setControl_samePaths _ (by rw [closing]; rfl)) h
  · exact h

theorem PathLaw.transmit (K : PathLaw P) {s : State} (h : P s) : P s.transmit := by
  have decided := K.same (s.setControl_samePaths { s.control with winner := s.control.decide.2 } rfl) h
  have granted : P s.arbitrate.2 := by
    unfold State.arbitrate
    dsimp only
    split
    · exact decided
    · unfold State.grantForward
      split
      · exact decided
      · exact K.same (State.setControl_samePaths _ _ rfl) decided
    · exact K.grantOwn decided
  unfold State.transmit
  split
  · exact h
  · exact K.same (State.setPorts_samePaths _ _) granted

theorem PathLaw.takeInterlude (K : PathLaw P) {s : State} (h : P s) (x : Interlude) : P (s.takeInterlude x) := by
  cases x with
  | command code tag payload => exact State.whilePortsRun_keeps h (fun s => s.takeCommand code tag payload) (K.takeCommand h code tag payload)
  | outboundGood seq flags slots window stepFirst => exact State.whilePortsRun_keeps h _ (K.outboundGood h seq flags slots window stepFirst)
  | outboundBad slots => exact State.whilePortsRun_keeps h _ (K.outboundBad h slots)
  | timerExpiry => exact K.timerExpires h
  | seedStep => exact K.takeSeedStep h
  | transmit => exact State.whilePortsRun_keeps h _ (K.transmit h)

theorem PathLaw.processSlots (K : PathLaw P) {s : State} (h : P s) (between : List (Nat × Interlude)) (slots : List Slot) :
    P (s.processSlots between slots).2 :=
  State.processSlots_induction P s between slots h (fun op action arrived slots _ c ht => K.channelBlock op action arrived slots ht c)
    fun _ x ht => K.takeInterlude ht x

theorem PathLaw.sendFiller (K : PathLaw P) {s : State} (h : P s) (between : List (Nat × Interlude)) (slots : List Slot) :
    P (s.sendFiller between slots) :=
  K.same ((State.setPorts_samePaths _ _).trans (State.setPorts_samePaths _ _)) (K.processSlots h between slots)

theorem PathLaw.inboundGood (K : PathLaw P) {s : State} (h : P s) (seq flags : Byte) (slots : List Slot) (window : List Byte)
    (between : List (Nat × Interlude)) : P (s.inboundGood seq flags slots window between) := by
  have forwarded : ∀ t : State, SamePaths t (t.forwardPacket flags window) := by
    intro t
    unfold State.forwardPacket
    split
    · split
      · exact t.raise_samePaths _ _ _
      · split
        · exact t.setControl_samePaths _ rfl
        · exact t.raise_samePaths _ _ _
    · exact SamePaths.refl t
  have processed := K.processSlots (K.same (s.setPorts_samePaths { s.ports with roomSilence := 0, origination := false, skip := false }) h)
    between slots
  exact K.same (((forwarded _).trans (State.setPorts_samePaths _ _)).trans (State.setPorts_samePaths _ _)) processed

theorem PathLaw.inboundBad (K : PathLaw P) {s : State} (h : P s) (slots : List Slot) (between : List (Nat × Interlude)) :
    P (s.inboundBad slots between) := by
  have raised := K.raise h .headerCrc (.port .room) none
  unfold State.inboundBad
  refine K.sendFiller ?_ between _
  split
  · exact K.same (State.setPorts_samePaths _ _) raised
  · exact raised

theorem PathLaw.takeRoomMark (K : PathLaw P) {s : State} (h : P s) (between : List (Nat × Interlude)) : P (s.takeRoomMark between) := by
  have originated : ∀ t : State, P t → P (if t.ports.origination then t.originate between else t) := by
    intro t ht
    unfold State.originate
    split
    · split
      · exact K.same (t.setPorts_samePaths _) ht
      · exact K.sendFiller ht between _
    · exact ht
  have silent : ∀ t : State, P t → P t.roomFallsSilent := by
    intro t ht
    have counted := K.same (t.setPorts_samePaths { t.ports with roomSilence := 48, origination := true, skip := false }) ht
    unfold State.roomFallsSilent
    dsimp only
    split
    · exact K.raise counted _ _ _
    · exact counted
  have advanced : ∀ t : State, P t → P (t.roomAdvance between) := by
    intro t ht
    refine originated _ ?_
    split
    · exact silent t ht
    · split
      · exact K.same (t.setPorts_samePaths _) ht
      · exact ht
  unfold State.takeRoomMark
  split
  · exact advanced _ (K.same (s.setPorts_samePaths _) h)
  · split
    · exact advanced _ (K.same (s.setPorts_samePaths _) h)
    · exact h

theorem Reference.tested_bulk (r : Reference) (reaches : Bool) : (r.tested reaches).bulk = r.bulk := by
  unfold Reference.tested
  split
  · rfl
  · split <;> rfl

/-- A reference's record replaced, its bulk delay kept. -/
theorem State.putReference_samePaths (s : State) (r : Nat) (x : Reference) (h : x.bulk = (s.reference r).bulk) :
    SamePaths s (s.putReference r x) := by
  refine .of_eq rfl rfl rfl (fun k => ?_) rfl rfl rfl
  by_cases hk : r = k
  · subst hk
    by_cases hr : r < s.references.length
    · rw [s.reference_putReference_self r x hr, h]
    · simp [State.reference, hr]
  · rw [s.reference_putReference_ne r k x hk]

/-- A command's row is its taking while the ports run (R126, R144). -/
theorem exec_command (i : Instr) (s : State) (h : (commandOf i).isSome = true) :
    exec i s = .next (s.whilePortsRun fun s => s.takeRow i) := by
  cases i with
  | powerOn | resetPinAssert | resetPin | outboundGoodArrival | outboundBadArrival | blockIntervalTimerExpiry | lockAcquired | lockLoss
  | coreSilence | roomSilenceAdvance | roomSilence | inboundGoodArrival | inboundBadArrival | inboundBlockTransmit | seedStep | windowEnd
  | captureClip | activityHangoverExpiry | nearHangoverExpiry => cases h
  | _ => rfl

theorem PathLaw.exec (K : PathLaw P) {s t : State} (h : P s) (i : Instr) (e : exec i s = .next t) : P t := by
  by_cases command : (commandOf i).isSome = true
  · rw [exec_command i s command] at e
    obtain rfl := Host.Outcome.next.inj e
    exact State.whilePortsRun_keeps h _ (K.takeRow h i)
  · cases i with
    | powerOn =>
      obtain rfl := Host.Outcome.next.inj e
      exact K.atReset rfl rfl rfl rfl rfl rfl rfl
    | resetPin =>
      obtain rfl := Host.Outcome.next.inj e
      exact K.atReset rfl rfl rfl rfl rfl rfl rfl
    | resetPinAssert =>
      obtain rfl := Host.Outcome.next.inj e
      exact K.same (s.setPorts_samePaths _) h
    | outboundGoodArrival seq flags slots window stepFirst =>
      obtain rfl := Host.Outcome.next.inj e
      exact State.whilePortsRun_keeps h _ (K.outboundGood h seq flags slots window stepFirst)
    | outboundBadArrival slots =>
      obtain rfl := Host.Outcome.next.inj e
      exact State.whilePortsRun_keeps h _ (K.outboundBad h slots)
    | blockIntervalTimerExpiry =>
      obtain rfl := Host.Outcome.next.inj e
      exact K.timerExpires h
    | lockAcquired =>
      obtain rfl := Host.Outcome.next.inj e
      refine State.whilePortsRun_keeps h _ ?_
      split
      · exact K.period h (s.lockSees_periodWork _)
      · exact h
    | lockLoss =>
      obtain rfl := Host.Outcome.next.inj e
      split
      · exact K.period h (s.lockSees_periodWork _)
      · exact h
    | coreSilence =>
      obtain rfl := Host.Outcome.next.inj e
      split
      · exact K.period h s.coreSilenceRises_periodWork
      · exact h
    | roomSilenceAdvance between =>
      obtain rfl := Host.Outcome.next.inj e
      exact K.takeRoomMark h between
    | roomSilence between =>
      obtain rfl := Host.Outcome.next.inj e
      split
      · exact K.takeRoomMark h between
      · exact h
    | inboundGoodArrival seq flags slots window between =>
      obtain rfl := Host.Outcome.next.inj e
      exact State.whilePortsRun_keeps h _ (K.inboundGood h seq flags slots window between)
    | inboundBadArrival slots between =>
      obtain rfl := Host.Outcome.next.inj e
      exact State.whilePortsRun_keeps h _ (K.inboundBad h slots between)
    | inboundBlockTransmit =>
      obtain rfl := Host.Outcome.next.inj e
      exact State.whilePortsRun_keeps h _ (K.transmit h)
    | seedStep =>
      obtain rfl := Host.Outcome.next.inj e
      exact K.takeSeedStep h
    | windowEnd c capture live background => exact K.windowEnd h c capture live background e
    | captureClip c =>
      obtain rfl := Host.Outcome.next.inj e
      dsimp only
      split
      · exact K.same (s.clipTest_samePaths c true) h
      · exact h
    | activityHangoverExpiry r =>
      obtain rfl := Host.Outcome.next.inj e
      dsimp only
      split
      · exact K.same (s.putReference_samePaths r _ (Reference.tested_bulk _ _)) h
      · exact h
    | nearHangoverExpiry c =>
      obtain rfl := Host.Outcome.next.inj e
      dsimp only
      split
      · exact K.same (s.putChannel_samePaths c _ rfl rfl) h
      · exact h
    | _ => exact absurd rfl command

/-- What every operation on the paths keeps, every step keeps. -/
theorem PathLaw.step (K : PathLaw P) {s t : State} (h : P s) (e : step s = .next t) : P t := by
  unfold Machine.step at e
  split at e
  · obtain rfl := Host.Outcome.next.inj e
    exact h
  · exact K.exec (K.same (s.setPending_samePaths _) h) _ e

end
end Sys2Proof.Machine
end

section
/-! The pool law and the alignment limit survive the operations on the paths: either chains and references stand, or one chain is replaced and its partitions come from or go to the free list. -/

namespace Sys2Proof.Machine

open Sys2Proof.Safety

/-! ### The pool law -/

/-- Chains, references, free list and bulk delays are as they were, and an UNUSED record is still blank. -/
structure ChainsKept (s t : State) : Prop where
  chains : t.paths.map (fun r => (r.chain, r.reference)) = s.paths.map fun r => (r.chain, r.reference)
  blank : UnusedIsBlank s → UnusedIsBlank t
  free : t.pool.free = s.pool.free
  bulk : ∀ k, (t.reference k).bulk = (s.reference k).bulk

theorem ChainsKept.trans {s t u : State} (h : ChainsKept s t) (k : ChainsKept t u) : ChainsKept s u where
  chains := k.chains.trans h.chains
  blank := k.blank ∘ h.blank
  free := k.free.trans h.free
  bulk := fun n => (k.bulk n).trans (h.bulk n)

theorem SamePaths.chainsKept {s t : State} (h : SamePaths s t) : ChainsKept s t :=
  ⟨by rw [h.paths], by rw [UnusedIsBlank, UnusedIsBlank, h.paths]; exact id, h.free, h.bulk⟩

theorem ChainsKept.poolSound {s t : State} (h : ChainsKept s t) (sound : PoolSound s) : PoolSound t := by
  obtain ⟨count, blank, pool, aligned⟩ := sound
  refine ⟨?_, h.blank blank, ?_, ?_⟩
  · rw [← count]
    simpa using congrArg List.length h.chains
  · have chains := congrArg (List.flatMap Prod.fst) h.chains
    simp only [List.flatMap_map] at chains
    unfold PoolLaw
    rw [h.free]
    exact chains ▸ pool
  · intro r hr
    have same : (r.chain, r.reference) ∈ s.paths.map fun r => (r.chain, r.reference) := h.chains ▸ List.mem_map_of_mem hr
    obtain ⟨r', hr', e⟩ := List.mem_map.mp same
    obtain ⟨chain, reference⟩ := Prod.mk.inj e
    simpa only [PathRecord.length, chain, reference, h.bulk] using aligned r' hr'

/-- A record read by number is one of the table's, or the UNUSED values beyond it. -/
theorem State.forall_paths_iff (s : State) (Q : PathRecord → Prop) (unused : Q PathRecord.unused) :
    (∀ r ∈ s.paths, Q r) ↔ ∀ p, Q (s.path p) := by
  constructor
  · intro h p
    rw [State.path, List.getD_eq_getElem?_getD]
    rcases e : s.paths[p]? with _ | r
    · exact unused
    · exact h r (List.mem_of_getElem? e)
  · intro h r hr
    obtain ⟨p, hp, rfl⟩ := List.mem_iff_getElem.mp hr
    simpa [State.path, hp] using h p

theorem unusedIsBlank_iff (s : State) : UnusedIsBlank s ↔ ∀ p, (s.path p).state = .unused → s.path p = PathRecord.unused :=
  s.forall_paths_iff (fun r => r.state = .unused → r = PathRecord.unused) fun _ => rfl

/-- A record replaced, its chain and reference kept. -/
theorem State.putPath_chainsKept (s : State) (p : Nat) (x : PathRecord) (chain : x.chain = (s.path p).chain)
    (reference : x.reference = (s.path p).reference) (blank : UnusedIsBlank s → x.state = .unused → x = PathRecord.unused) :
    ChainsKept s (s.putPath p x) where
  chains := List.map_set_same (fun r : PathRecord => (r.chain, r.reference)) s.paths p PathRecord.unused x (Prod.ext chain reference)
  blank := fun h r hr => (List.mem_or_eq_of_mem_set hr).elim (h r) fun e => e ▸ blank h
  free := rfl
  bulk := fun _ => rfl

theorem State.beginCopies_chainsKept (s : State) (flip : Bool) (c : Nat) : ChainsKept s (s.beginCopies flip c) := by
  unfold State.beginCopies
  generalize (s.channel c).paths = l
  induction l generalizing s with
  | nil => exact (SamePaths.refl s).chainsKept
  | cons p rest ih =>
    have begun := s.putPath_chainsKept p
      { s.path p with live := if flip then (s.path p).live.other else (s.path p).live, state := .seeding } rfl rfl fun _ h => nomatch h
    exact (begun.trans ⟨rfl, id, rfl, fun _ => rfl⟩ : ChainsKept s (s.beginCopy flip p)).trans (ih _)

theorem State.putChannel_chainsKept (s : State) (c : Nat) (x : Channel) : ChainsKept s (s.putChannel c x) :=
  ⟨rfl, id, rfl, fun _ => rfl⟩

theorem State.resetComparisonFully_chainsKept (s : State) (c : Nat) : ChainsKept s (s.resetComparisonFully c) :=
  (s.putChannel_chainsKept c _).trans (State.putChannel_chainsKept _ c _)

theorem State.unheld_chainsKept (s : State) (rb : Readback) : ChainsKept s (s.unheld rb) := by
  unfold State.unheld
  split
  · exact s.putPath_chainsKept _ _ rfl rfl fun blank h => by rw [(unusedIsBlank_iff s).mp blank rb.path h]; rfl
  · exact (SamePaths.refl s).chainsKept

theorem State.finishReadback_chainsKept (s : State) (rb : Readback) : ChainsKept s (s.finishReadback rb) := by
  rcases s.finishReadback_cases rb with ⟨e, _⟩ | ⟨c, _, _, e⟩ <;> rw [e]
  · exact s.unheld_chainsKept rb
  · exact (s.unheld_chainsKept rb).trans ((State.beginCopies_chainsKept _ true c).trans (State.putChannel_chainsKept _ c _))

/-- What a list of chains holds after one of them is replaced. -/
theorem List.count_flatMap_set {α : Type} (f : α → List Nat) (l : List α) (p : Nat) (x : α) (hp : p < l.length) (n : Nat) :
    ((l.set p x).flatMap f).count n + (f l[p]).count n = (l.flatMap f).count n + (f x).count n := by
  induction l generalizing p with
  | nil => simp at hp
  | cons y rest ih =>
    cases p with
    | zero =>
      simp only [List.set_cons_zero, List.flatMap_cons, List.count_append, List.getElem_cons_zero]
      omega
    | succ p =>
      have := ih p (by simpa using hp)
      simp only [List.set_cons_succ, List.flatMap_cons, List.count_append, List.getElem_cons_succ]
      omega

/-- One path's chain replaced, partitions going only between it and the free list. -/
theorem poolSound_rechained {s t : State} (h : PoolSound s) {p : Nat} (hp : p < 64) {x : PathRecord} (paths : t.paths = s.paths.set p x)
    (references : t.references = s.references) (used : x.state = .unused → x = PathRecord.unused)
    (moved : (t.pool.free ++ x.chain).Perm (s.pool.free ++ (s.path p).chain))
    (fits : x.length ≤ 448 ∧ ∀ k, x.reference = some k → x.length + (s.reference k).bulk ≤ 512) : PoolSound t := by
  obtain ⟨count, blank, pool, aligned⟩ := h
  have hp' : p < s.paths.length := by omega
  refine ⟨by rw [paths, List.length_set, count], ?_, ?_, ?_⟩ 
  · intro r hr
    rw [paths] at hr
    exact (List.mem_or_eq_of_mem_set hr).elim (blank r) fun e => e ▸ used
  · refine List.Perm.trans (List.perm_iff_count.mpr fun n => ?_) pool
    have replaced := List.count_flatMap_set PathRecord.chain s.paths p x hp' n
    have counted := List.perm_iff_count.mp moved n
    simp only [List.count_append, State.path, List.getD_eq_getElem _ _ hp'] at counted
    rw [paths, List.count_append, List.count_append]
    omega
  · intro r hr
    rw [paths] at hr
    simp only [State.reference, references]
    exact (List.mem_or_eq_of_mem_set hr).elim (aligned r) fun e => e ▸ fits

/-- A path in the table has the alignment limit. -/
theorem fits_of_poolSound {s : State} (h : PoolSound s) {p : Nat} (hp : p < s.paths.length) :
    (s.path p).length ≤ 448 ∧ ∀ k, (s.path p).reference = some k → (s.path p).length + (s.reference k).bulk ≤ 512 := by
  obtain ⟨_, _, _, aligned⟩ := h
  refine aligned _ ?_
  rw [State.path, List.getD_eq_getElem _ _ hp]
  exact List.getElem_mem hp

theorem poolSound_reset : PoolSound State.reset := by
  refine ⟨rfl, ?_, ?_, ?_⟩
  · intro r hr _
    exact List.eq_of_mem_replicate hr
  · simp [PoolLaw, State.reset, Pool.initial, PathRecord.unused]
  · intro r hr
    rw [List.eq_of_mem_replicate hr]
    simp [PathRecord.unused, PathRecord.length]

theorem State.abortReadback_chainsKept (s : State) : ChainsKept s s.abortReadback := by
  have set : ∀ x, ChainsKept s (s.setStreamer x) := fun _ => ⟨rfl, id, rfl, fun _ => rfl⟩
  unfold State.abortReadback
  split
  · exact (set _).trans (State.finishReadback_chainsKept _ _)
  · exact (SamePaths.refl s).chainsKept
  · exact (SamePaths.refl s).chainsKept

/-- RELEASE PATH's ending of the work in flight moves no partition (R15). -/
theorem State.endWorkOn_chainsKept (s : State) (p : Nat) : ChainsKept s (s.endWorkOn p) := by
  have queued : ∀ (t : State) q, ChainsKept s t → ChainsKept s (if (t.setQueue q).readbackOf p then (t.setQueue q).abortReadback
      else t.setQueue q) := by
    intro t q k
    have set : ChainsKept s (t.setQueue q) := k.trans ⟨rfl, id, rfl, fun _ => rfl⟩
    split
    · exact set.trans (State.abortReadback_chainsKept _)
    · exact set
  refine queued _ _ ?_
  split
  · exact s.putChannel_chainsKept _ _
  · exact (SamePaths.refl s).chainsKept

theorem State.release_poolSound (s : State) (p : Nat) (h : PoolSound s) (hp : p < 64) : PoolSound (s.release p) := by
  have ended := (s.endWorkOn_chainsKept p).poolSound h
  have returned : PoolSound (((s.endWorkOn p).returnFree ((s.endWorkOn p).path p).chain).putPath p PathRecord.unused) :=
    poolSound_rechained ended hp rfl rfl (fun _ => rfl) (by simp [State.returnFree, PathRecord.unused])
      (by simp [PathRecord.length, PathRecord.unused])
  unfold State.release
  dsimp only
  split
  · exact ((State.putChannel_chainsKept _ _ _).trans (State.resetComparisonFully_chainsKept _ _)).poolSound returned
  · exact returned

theorem PathRecord.relearning_chain (r : PathRecord) : (r.relearning.chain, r.relearning.reference) = (r.chain, r.reference) := by
  unfold PathRecord.relearning
  split <;> rfl

theorem State.resetOwner_chainsKept (s : State) (p : Nat) : ChainsKept s (s.resetOwner p) := by
  unfold State.resetOwner
  split
  · exact s.resetComparisonFully_chainsKept _
  · exact (SamePaths.refl s).chainsKept

theorem poolSound_allocate (s : State) (p c r n step : Nat) (h : PoolSound s) (hp : p < 64) (unused : (s.path p).state = .unused)
    (aligned : (s.reference r).bulk + n ≤ 512) (short : n ≤ 448) : PoolSound (s.allocate p c r n step) := by
  obtain ⟨_, blank, _⟩ := id h
  have empty : (s.path p).chain = [] := by
    rw [(unusedIsBlank_iff s).mp blank p unused]
    rfl
  have taken : (s.pool.free.take n).length ≤ n := List.length_take_le _ _
  rw [State.allocate_eq]
  refine poolSound_rechained h hp rfl rfl (fun e => nomatch e) ?_ ⟨taken.trans short, fun k hk => ?_⟩
  · rw [empty, List.append_nil]
    refine List.perm_append_comm.trans ?_
    show (s.pool.free.take n ++ s.pool.free.drop n).Perm s.pool.free
    rw [List.take_append_drop]
  · obtain rfl : r = k := Option.some.inj hk
    refine (Nat.add_le_add_right taken _).trans ?_
    rw [Nat.add_comm]
    exact aligned

theorem poolSound_truncate (s : State) (p n : Nat) (h : PoolSound s) (ready : (s.path p).state = .ready) : PoolSound (s.truncate p n) := by
  have used : (s.path p).state ≠ .unused := by simp [ready]
  have hp := s.path_lt p used
  have cut : ((s.path p).chain.take n).length ≤ (s.path p).length := List.length_take_le' _ _
  obtain ⟨short, aligned⟩ := fits_of_poolSound h hp
  refine (State.resetOwner_chainsKept _ p).poolSound (poolSound_rechained h (h.1 ▸ hp) rfl rfl (fun e => absurd e used) ?_
    ⟨cut.trans short, fun k hk => (Nat.add_le_add_right cut _).trans (aligned k hk)⟩)
  show (s.pool.free ++ (s.path p).chain.drop n ++ (s.path p).chain.take n).Perm _
  rw [List.append_assoc]
  refine List.Perm.append_left _ (List.perm_append_comm.trans ?_)
  rw [List.take_append_drop]

theorem poolSound_extend (s : State) (p n : Nat) (h : PoolSound s) (ready : (s.path p).state = .ready) (short : n ≤ 448)
    (aligned : ∀ k, (s.path p).reference = some k → (s.reference k).bulk + n ≤ 512) (longer : (s.path p).length < n) :
    PoolSound (s.extend p n) := by
  have hp := s.path_lt p (by simp [ready])
  have grown : ((s.path p).chain ++ s.pool.free.take (n - (s.path p).length)).length ≤ n := by
    rw [List.length_append, List.length_take]
    unfold PathRecord.length at *
    omega
  refine (State.resetOwner_chainsKept _ p).poolSound (poolSound_rechained h (h.1 ▸ hp) rfl rfl (fun e => nomatch e) ?_
    ⟨grown.trans short, fun k hk => (Nat.add_le_add_right grown _).trans (by rw [Nat.add_comm]; exact aligned k hk)⟩)
  show (s.pool.free.drop (n - (s.path p).length) ++ ((s.path p).chain ++ s.pool.free.take (n - (s.path p).length))).Perm _
  refine List.perm_append_comm.trans ?_
  rw [List.append_assoc, List.take_append_drop]
  exact List.perm_append_comm

/-- A bulk delay rewritten that the paths on its reference fit (R36, R44). -/
theorem poolSound_bulk {s t : State} (same : SamePaths { s with references := t.references } t)
    (aligned : ∀ p ∈ s.paths, p.state ≠ .unused → ∀ k, p.reference = some k →
      (t.reference k).bulk = (s.reference k).bulk ∨ (t.reference k).bulk + p.length ≤ 512) (h : PoolSound s) : PoolSound t := by
  obtain ⟨count, blank, pool, fits⟩ := h
  have paths : t.paths = s.paths := same.paths
  have free : t.pool.free = s.pool.free := same.free
  refine ⟨paths ▸ count, by rw [UnusedIsBlank, paths]; exact blank, by rw [PoolLaw, paths, free]; exact pool, ?_⟩
  rw [AlignmentLaw, paths]
  refine fun r hr => ⟨(fits r hr).1, fun k hk => ?_⟩
  by_cases unused : r.state = .unused
  · rw [blank r hr unused] at hk
    cases hk
  · rcases aligned r hr unused k hk with e | e
    · exact e ▸ (fits r hr).2 k hk
    · omega

theorem State.startReadback_chainsKept (s : State) (rb : Readback) (used : (s.path rb.path).state ≠ .unused) :
    ChainsKept s (s.startReadback rb) := by
  have set : ChainsKept s (s.setStreamer (.streaming rb)) := ⟨rfl, id, rfl, fun _ => rfl⟩
  unfold State.startReadback
  dsimp only
  split
  · exact set.trans (State.putPath_chainsKept _ rb.path { s.path rb.path with readHeld := true } rfl rfl fun _ e => absurd e used)
  · exact set

theorem State.resetAdaptation_chainsKept (s : State) : ChainsKept s s.resetAdaptation := by
  have ended : ChainsKept s s.clearAllPending.abortReadback :=
    ChainsKept.trans (t := s.clearAllPending) ⟨rfl, id, rfl, fun _ => rfl⟩ (State.abortReadback_chainsKept _)
  refine ended.trans ⟨?_, ?_, rfl, fun _ => rfl⟩
  · show (List.map PathRecord.relearning _).map _ = _
    rw [List.map_map]
    exact List.map_congr_left fun r _ => r.relearning_chain
  · intro blank r hr unused
    obtain ⟨r', hr', rfl⟩ := List.mem_map.mp (show r ∈ List.map PathRecord.relearning _ from hr)
    unfold PathRecord.relearning at unused ⊢
    split at unused
    · next e =>
      rw [if_pos e]
      exact blank r' hr' e
    · cases unused

/-- The pool law and the alignment limit survive every operation on the paths (R2, R6, R44). -/
theorem poolLaw : PathLaw PoolSound where
  reset := poolSound_reset
  same := fun same h => same.chainsKept.poolSound h
  clearPending := fun s c h => (s.putChannel_chainsKept c _).poolSound h
  allocate := fun s p c r n step h hp unused _ aligned _ _ _ short _ => poolSound_allocate s p c r n step h hp unused aligned short
  release := fun s p h used => s.release_poolSound p h (h.1 ▸ s.path_lt p used)
  truncate := fun s p n h ready _ _ _ => poolSound_truncate s p n h ready
  extend := fun s p n h ready _ short aligned longer _ => poolSound_extend s p n h ready short aligned longer
  setStep := fun s p n h used => (s.putPath_chainsKept p { s.path p with step := n } rfl rfl fun _ e => absurd e used).poolSound h
  bulk := poolSound_bulk
  copies := fun s flip c _ h _ _ _ => ((s.beginCopies_chainsKept flip c).trans (State.putChannel_chainsKept _ c _)).poolSound h
  defer := fun s c _ h _ _ _ => (s.putChannel_chainsKept c _).poolSound h
  startReadback := fun s rb h _ _ used _ _ => (s.startReadback_chainsKept rb used).poolSound h
  advanceReadback := fun _ _ h _ _ => ChainsKept.poolSound ⟨rfl, id, rfl, fun _ => rfl⟩ h
  endReadback := fun s rb x h _ _ =>
    (ChainsKept.trans ⟨rfl, id, rfl, fun _ => rfl⟩ (State.finishReadback_chainsKept (s.setStreamer x) rb)).poolSound h
  resetAdaptation := fun s h => s.resetAdaptation_chainsKept.poolSound h
  complete := fun s q rest h _ =>
    ChainsKept.poolSound (.trans (t := s.setQueue rest) ⟨rfl, id, rfl, fun _ => rfl⟩ (State.putPath_chainsKept _ q.path
      { s.path q.path with state := .ready } rfl rfl fun _ e => nomatch e)) h
  progress := fun _ _ _ h _ _ => ChainsKept.poolSound ⟨rfl, id, rfl, fun _ => rfl⟩ h

/-- Settles O57: the pool law and the alignment limit survive each operation on the paths, so every step. -/
theorem poolLawKept : Obligations.PoolLawKept := fun _ _ e h => poolLaw.step h e

end Sys2Proof.Machine
end

section
/-! The laws of path lists, seed queue, readback and pending promotes survive the operations on the paths. -/

namespace Sys2Proof.Machine

open Sys2Proof.Safety

/-! ### The laws of path lists, seed queue, readback and pending promotes -/

/-- The laws of the paths but for the pending promotes, by path number. -/
structure PathsCore (s : State) : Prop where
  channels : s.channels.length = 24
  paths : s.paths.length = 64
  blank : ∀ p, (s.path p).state = .unused → s.path p = PathRecord.unused
  used : ∀ p, (s.path p).state ≠ .unused → 1 ≤ (s.path p).length
  comparator : 8 ≤ s.comparator.window ∧ 1 ≤ s.comparator.promoteCount
  lists : ListsSound s
  queue : QueueSound s
  readback : ReadbackSound s

/-- A pending promote of one channel stands only under a live readback of one of its paths, and all of them are READY (R74, R75). -/
def PendingAt (s : State) (c : Nat) : Prop :=
  (s.channel c).comparison.pendingPromote = true →
    (s.channel c).paths.any s.liveReadbackOf = true ∧ ∀ p ∈ (s.channel c).paths, (s.path p).state = .ready

theorem pathsSound_iff (s : State) : PathsSound s ↔ PathsCore s ∧ ∀ c < 24, PendingAt s c := by
  have lengths := s.forall_paths_iff (fun r => r.state ≠ .unused → 1 ≤ r.length) (fun h => absurd rfl h)
  constructor
  · rintro ⟨channels, paths, blank, used, window, promoteCount, lists, queue, readback, pending⟩
    exact ⟨⟨channels, paths, (unusedIsBlank_iff s).mp blank, lengths.mp used, ⟨window, promoteCount⟩, lists, queue, readback⟩, pending⟩
  · rintro ⟨h, pending⟩
    exact ⟨h.channels, h.paths, (unusedIsBlank_iff s).mpr h.blank, lengths.mpr h.used, h.comparator.1, h.comparator.2, h.lists, h.queue,
      h.readback, pending⟩

theorem PathsCore.listed {s : State} (h : PathsCore s) {c : Nat} (hc : c < 24) {p : Nat} (hp : p ∈ (s.channel c).paths) :
    p < 64 ∧ (s.path p).state ≠ .unused ∧ (s.path p).owner = some c := by
  obtain ⟨_, _, members, _⟩ := h.lists.1 c hc
  exact members p hp

theorem PathsCore.owned {s : State} (h : PathsCore s) {p : Nat} (used : (s.path p).state ≠ .unused) :
    ∃ c < 24, (s.path p).owner = some c ∧ p ∈ (s.channel c).paths := h.lists.2 p (h.paths ▸ s.path_lt p used) used

theorem PathsCore.listed_used {s : State} (h : PathsCore s) {c : Nat} (hc : c < 24) {p : Nat} (hp : p ∈ (s.channel c).paths) :
    (s.path p).state ≠ .unused := by
  obtain ⟨_, used, _⟩ := h.listed hc hp
  exact used

theorem PathsCore.listed_owner {s : State} (h : PathsCore s) {c : Nat} (hc : c < 24) {p : Nat} (hp : p ∈ (s.channel c).paths) :
    (s.path p).owner = some c := by
  obtain ⟨_, _, owner⟩ := h.listed hc hp
  exact owner

theorem PathsCore.read_used {s : State} (h : PathsCore s) {rb : Readback} (reading : s.control.streamer = .streaming rb) :
    (s.path rb.path).state ≠ .unused := by
  obtain ⟨_, used, _⟩ := h.readback.1 rb reading
  exact used

/-- A path whose owner is another channel is not in the list. -/
theorem PathsCore.not_listed {s : State} (h : PathsCore s) {c k : Nat} (hk : k < 24) (hne : c ≠ k) {p : Nat}
    (owner : (s.path p).owner = some c) : p ∉ (s.channel k).paths := fun hp =>
  hne (Option.some.inj (owner.symm.trans (h.listed_owner hk hp)))

theorem PathsCore.settled_ready {s : State} (h : PathsCore s) {c : Nat} (hc : c < 24) (settled : s.Settled c) {p : Nat}
    (hp : p ∈ (s.channel c).paths) : (s.path p).state = .ready := by
  cases e : (s.path p).state with
  | unused => exact absurd e (h.listed_used hc hp)
  | seeding => exact absurd e (settled p hp)
  | ready => rfl

/-! ### What each law reads -/

theorem listsSound_same {s t : State} (h : ListsSound s) (lists : ∀ c, (t.channel c).paths = (s.channel c).paths)
    (unused : ∀ p, (t.path p).state = .unused ↔ (s.path p).state = .unused) (owner : ∀ p, (t.path p).owner = (s.path p).owner)
    (reference : ∀ p, (t.path p).reference = (s.path p).reference) : ListsSound t := by
  simpa only [ListsSound, lists, Ne, unused, owner, reference] using h

theorem queueSound_same {s t : State} (h : QueueSound s) (queue : t.seed.queue = s.seed.queue)
    (seeding : ∀ p, (t.path p).state = .seeding ↔ (s.path p).state = .seeding)
    (length : ∀ p, (s.path p).state = .seeding → (t.path p).length = (s.path p).length) : QueueSound t := by
  obtain ⟨nodup, requests, covers, begun⟩ := h
  refine ⟨queue ▸ nodup, fun p hp => ?_, fun q hq => ?_, queue ▸ begun⟩
  · rw [seeding, queue]
    exact requests p hp
  · rw [queue] at hq
    obtain ⟨inTable, cover, more⟩ := covers q hq
    rw [length _ ((requests _ inTable).mpr ⟨q, hq, rfl⟩)]
    exact ⟨inTable, cover, more⟩

theorem readbackSound_same {s t : State} (h : ReadbackSound s)
    (streaming : ∀ rb, t.control.streamer = .streaming rb ↔ s.control.streamer = .streaming rb)
    (held : ∀ p, (t.path p).readHeld = (s.path p).readHeld)
    (read : ∀ rb, s.control.streamer = .streaming rb → (s.path rb.path).state ≠ .unused →
      (t.path rb.path).state ≠ .unused ∧ (t.path rb.path).length = (s.path rb.path).length) : ReadbackSound t := by
  refine ⟨fun rb hrb => ?_, fun p hp => ?_⟩
  · rw [streaming] at hrb
    obtain ⟨inTable, used, some, within⟩ := h.1 rb hrb
    obtain ⟨used', length⟩ := read rb hrb used
    exact ⟨inTable, used', some, length ▸ within⟩
  · simp only [streaming, held]
    exact h.2 p hp

theorem liveReadbackOf_same {s t : State} (streaming : ∀ rb, t.control.streamer = .streaming rb ↔ s.control.streamer = .streaming rb)
 :
    t.liveReadbackOf = s.liveReadbackOf := by
  funext p
  rw [Bool.eq_iff_iff]
  simp only [State.liveReadbackOf_iff, streaming]

theorem pendingAt_same {s t : State} {c : Nat} (h : PendingAt s c)
    (pending : (t.channel c).comparison.pendingPromote = (s.channel c).comparison.pendingPromote)
    (list : (t.channel c).paths = (s.channel c).paths)
    (streaming : ∀ rb, t.control.streamer = .streaming rb ↔ s.control.streamer = .streaming rb)
    (ready : ∀ p ∈ (s.channel c).paths, (s.path p).state = .ready → (t.path p).state = .ready) : PendingAt t c := by
  intro set
  obtain ⟨live, allReady⟩ := h (pending ▸ set)
  rw [list]
  refine ⟨?_, fun p hp => ready p hp (allReady p hp)⟩
  rw [liveReadbackOf_same streaming]
  exact live

theorem pendingAt_clear {t : State} {c : Nat} (h : (t.channel c).comparison.pendingPromote = false) : PendingAt t c := fun set => by
  rw [h] at set
  cases set

/-- What is neither list, record, queue nor readback, the laws do not read. -/
theorem PathsCore.same {s t : State} (h : PathsCore s) (channels : t.channels.length = s.channels.length) (paths : t.paths = s.paths)
    (lists : ∀ c, (t.channel c).paths = (s.channel c).paths)
    (comparator : 8 ≤ s.comparator.window ∧ 1 ≤ s.comparator.promoteCount → 8 ≤ t.comparator.window ∧ 1 ≤ t.comparator.promoteCount)
    (queue : t.seed.queue = s.seed.queue) (streaming : ∀ rb, t.control.streamer = .streaming rb ↔ s.control.streamer = .streaming rb) :
    PathsCore t := by
  have path : ∀ p, t.path p = s.path p := fun p => by simp [State.path, paths]
  refine ⟨channels.trans h.channels, paths ▸ h.paths, fun p => ?_, fun p => ?_, comparator h.comparator,
    listsSound_same h.lists lists (fun p => ?_) (fun p => ?_) fun p => ?_, queueSound_same h.queue queue (fun p => ?_) fun p _ => ?_,
    readbackSound_same h.readback streaming (fun p => ?_) fun rb _ used => ?_⟩
  all_goals rw [path]
  · exact h.blank p
  · exact h.used p
  · exact ⟨used, rfl⟩

theorem PathsCore.putChannel {s : State} (h : PathsCore s) (c : Nat) (x : Channel) (list : x.paths = (s.channel c).paths) :
    PathsCore (s.putChannel c x) :=
  h.same (by simp) rfl (State.channel_putChannel_congr Channel.paths s c x list) id rfl fun _ => Iff.rfl

theorem pathsSound_same {s t : State} (same : SamePaths s t) (h : PathsSound s) : PathsSound t := by
  obtain ⟨core, pending⟩ := (pathsSound_iff s).mp h
  refine (pathsSound_iff t).mpr ⟨core.same same.channelCount same.paths same.lists same.comparator same.queue same.streaming,
    fun c hc => pendingAt_same (pending c hc) (same.pending c) (same.lists c) same.streaming fun p _ ready => ?_⟩
  rw [same.path]
  exact ready

/-! ### One record rewritten -/

theorem State.path_of_set {s t : State} {p : Nat} {x : PathRecord} (paths : t.paths = s.paths.set p x) (hp : p < s.paths.length) (q : Nat) :
    t.path q = if p = q then x else s.path q := by
  rw [show t.path q = (s.putPath p x).path q by simp [State.path, paths], State.path_putPath]
  simp only [hp, and_true]

/-- A record in use rewritten, its owner and reference kept: lists stand, and queue and readback are left to show. -/
theorem PathsCore.rewrite {s t : State} (h : PathsCore s) {p : Nat} {x : PathRecord} (paths : t.paths = s.paths.set p x)
    (used : (s.path p).state ≠ .unused)
    (xUsed : x.state ≠ .unused) (owner : x.owner = (s.path p).owner) (reference : x.reference = (s.path p).reference) (length : 1 ≤ x.length)
    (channels : t.channels.length = s.channels.length) (lists : ∀ c, (t.channel c).paths = (s.channel c).paths)
    (comparator : t.comparator = s.comparator) (queue : QueueSound t)
    (readback : ReadbackSound t) : PathsCore t := by
  have path := State.path_of_set paths (s.path_lt p used)
  refine ⟨channels.trans h.channels, by rw [paths, List.length_set, h.paths], fun q => ?_, fun q => ?_, comparator ▸ h.comparator,
    listsSound_same h.lists lists (fun q => ?_) (fun q => ?_) fun q => ?_, queue, readback⟩
  all_goals
    rw [path]
    split
  · exact fun e => absurd e xUsed
  · exact h.blank q
  · exact fun _ => length
  · exact h.used q
  · next e => exact e ▸ iff_of_false xUsed used
  · rfl
  · next e => exact e ▸ owner
  · rfl
  · next e => exact e ▸ reference
  · rfl

theorem State.path_set_self {s t : State} {p : Nat} {x : PathRecord} (paths : t.paths = s.paths.set p x) (hp : p < s.paths.length) :
    t.path p = x := by rw [State.path_of_set paths hp, if_pos rfl]

theorem State.path_set_ne {s t : State} {p q : Nat} {x : PathRecord} (paths : t.paths = s.paths.set p x) (h : q ≠ p) :
    t.path q = s.path q := by
  simp [State.path, paths, List.getElem?_set_ne (Ne.symm h)]

/-- A record rewritten, its read-held flag kept, and its length where a readback reads it. -/
theorem readbackSound_put {s t : State} (h : ReadbackSound s) {p : Nat} {x : PathRecord} (hp : p < s.paths.length)
    (paths : t.paths = s.paths.set p x) (streaming : ∀ rb, t.control.streamer = .streaming rb ↔ s.control.streamer = .streaming rb)
    (held : x.readHeld = (s.path p).readHeld)
    (read : ∀ rb, s.control.streamer = .streaming rb → rb.path = p → x.state ≠ .unused ∧ x.length = (s.path p).length) :
    ReadbackSound t := by
  refine readbackSound_same h streaming (fun q => ?_) fun rb reading used => ?_
  all_goals
    rw [State.path_of_set paths hp]
    split
  · next e => exact e ▸ held
  · rfl
  · next e => exact e ▸ read rb reading e.symm
  · exact ⟨used, rfl⟩

/-- A request joins the seed queue for a path that becomes SEEDING (R82, R84). -/
theorem queueSound_append {s t : State} (h : QueueSound s) {p : Nat} (hp : p < 64) (idle : (s.path p).state ≠ .seeding)
    (path : ∀ q, q ≠ p → t.path q = s.path q) (seeding : (t.path p).state = .seeding) {r : SeedRequest} (request : r.path = p)
    (queue : t.seed.queue = s.seed.queue ++ [r]) (covers : r.first + r.count = (t.path p).length) (some : 0 < r.count) (fresh : r.done = 0) :
    QueueSound t := by
  obtain ⟨nodup, requests, covered, begun⟩ := h
  have others : ∀ q ∈ s.seed.queue, q.path ≠ p := fun q hq e => idle ((requests p hp).mpr ⟨q, hq, e⟩)
  refine ⟨?_, fun q hq => ?_, fun q hq => ?_, fun q hq => ?_⟩
  · rw [queue, List.map_append, List.map_singleton, List.nodup_append]
    exact ⟨nodup, List.nodup_singleton _, by simpa [request] using others⟩
  · rw [queue]
    by_cases e : q = p
    · subst e
      exact iff_of_true seeding ⟨r, by simp, request⟩
    · simp only [path q e, requests q hq, List.mem_append, List.mem_singleton, or_and_right, exists_or, exists_eq_left, request, Ne.symm e,
        or_false]
  · rw [queue] at hq
    rcases List.mem_append.mp hq with old | new
    · rw [path _ (others q old)]
      exact covered q old
    · obtain rfl := List.mem_singleton.mp new
      rw [request]
      exact ⟨hp, covers, by omega⟩
  · rw [queue, List.drop_append] at hq
    rcases List.mem_append.mp hq with old | new
    · exact begun q old
    · obtain rfl := List.mem_singleton.mp (List.mem_of_mem_drop new)
      exact fresh

/-- A path's request leaves the seed queue as the path leaves SEEDING, or has left it (R15, R88). -/
theorem queueSound_remove {s t : State} (h : QueueSound s) {p : Nat} (path : ∀ q, q ≠ p → t.path q = s.path q)
    (idle : (t.path p).state ≠ .seeding) (queue : t.seed.queue = s.seed.queue.filter fun q => q.path != p) : QueueSound t := by
  obtain ⟨nodup, requests, covered, begun⟩ := h
  have mem : ∀ q, q ∈ t.seed.queue ↔ q ∈ s.seed.queue ∧ q.path ≠ p := fun q => by simp [queue]
  refine ⟨?_, fun q hq => ?_, fun q hq => ?_, fun q hq => ?_⟩
  · rw [queue]
    exact nodup.sublist (List.filter_sublist.map _)
  · by_cases e : q = p
    · subst e
      exact iff_of_false idle fun ⟨r, hr, e⟩ => ((mem r).mp hr).2 e
    · rw [path q e, requests q hq]
      exact exists_congr fun r => ⟨fun ⟨hr, e'⟩ => ⟨(mem r).mpr ⟨hr, e' ▸ e⟩, e'⟩, fun ⟨hr, e'⟩ => ⟨((mem r).mp hr).1, e'⟩⟩
  · obtain ⟨old, other⟩ := (mem q).mp hq
    rw [path _ other]
    exact covered q old
  · refine begun q ?_
    rw [queue] at hq
    cases e : s.seed.queue with
    | nil => simp [e] at hq
    | cons a rest =>
      rw [e, List.filter_cons] at hq
      rw [List.drop_one, List.tail_cons]
      split at hq
      · exact List.mem_of_mem_filter hq
      · exact List.mem_of_mem_filter (List.mem_of_mem_drop hq)

/-! ### Copies -/

theorem PathsCore.beginCopy {s : State} (h : PathsCore s) (flip : Bool) {p : Nat} (ready : (s.path p).state = .ready) :
    PathsCore (s.beginCopy flip p) := by
  have used : (s.path p).state ≠ .unused := by simp [ready]
  have hp := s.path_lt p used
  refine h.rewrite (p := p) rfl used (by simp) rfl rfl (h.used p used) rfl (fun _ => rfl) rfl ?_ ?_
  · refine queueSound_append (p := p) (r := wholeChain p .copy (s.path p)) h.queue (h.paths ▸ hp) (by simp [ready])
      (fun q e => State.path_set_ne rfl e) ?_ rfl rfl ?_ (h.used p used) rfl
    · exact congrArg PathRecord.state (State.path_set_self (t := s.beginCopy flip p) rfl hp)
    · exact (Nat.zero_add _).trans (congrArg PathRecord.length (State.path_set_self (t := s.beginCopy flip p) rfl hp)).symm
  · exact readbackSound_put h.readback hp rfl (fun _ => Iff.rfl) rfl fun _ _ _ => ⟨by simp, rfl⟩

theorem PathsCore.foldl_beginCopy (flip : Bool) (l : List Nat) (nodup : l.Nodup) {s : State} (h : PathsCore s)
    (ready : ∀ p ∈ l, (s.path p).state = .ready) : PathsCore (l.foldl (fun s p => s.beginCopy flip p) s) := by
  induction l generalizing s with
  | nil => exact h
  | cons a rest ih =>
    obtain ⟨fresh, nodup'⟩ := List.nodup_cons.mp nodup
    have ready' := ready a (by simp)
    refine ih nodup' (h.beginCopy flip ready') fun p hp => ?_
    rw [State.path_set_ne (s := s) (t := s.beginCopy flip a) rfl (by rintro rfl; exact fresh hp)]
    exact ready p (by simp [hp])

/-- A promotion or a reseed of a channel whose paths are all READY (R74, R76). -/
theorem PathsCore.copies {s : State} (h : PathsCore s) (flip : Bool) {c : Nat} (hc : c < 24) (settled : s.Settled c) (m : ComparisonState) :
    PathsCore ((s.beginCopies flip c).putComparison c m) :=
  (PathsCore.foldl_beginCopy flip _ (h.lists.1 c hc).1 h fun _ hp => h.settled_ready hc settled hp).putChannel c _ rfl

theorem pendingAt_put {s : State} {c : Nat} (hc : c < s.channels.length) {m : ComparisonState} (clear : m.pendingPromote = false) :
    PendingAt (s.putComparison c m) c :=
  pendingAt_clear ((congrArg (fun ch => ch.comparison.pendingPromote) (s.channel_putChannel_self c _ hc)).trans clear)

/-- The copies of one channel touch no path of another. -/
theorem pendingAt_copies {s : State} (h : PathsCore s) (flip : Bool) {c : Nat} (hc : c < 24) (m : ComparisonState) {k : Nat} (hk : k < 24)
    (hne : c ≠ k) (pending : PendingAt s k) : PendingAt ((s.beginCopies flip c).putComparison c m) k := by
  have only := s.beginCopies_only flip c
  have channel : ((s.beginCopies flip c).putComparison c m).channel k = s.channel k :=
    (State.channel_putChannel_ne _ _ _ _ hne).trans (by simp [State.channel, only.channels])
  obtain ⟨_, others, _⟩ := s.foldl_beginCopy flip (s.channel c).paths (h.lists.1 c hc).1 fun p hp => h.paths ▸ (h.listed hc hp).1
  refine pendingAt_same pending (by rw [channel]) (by rw [channel]) (fun rb => ?_) fun p hp ready => ?_
  · exact iff_of_eq (congrArg (fun x : Control => x.streamer = .streaming rb) only.control)
  · exact (congrArg PathRecord.state (others p fun hp' => h.not_listed hk hne (h.listed_owner hc hp') hp)).trans ready

/-! ### Readbacks -/

theorem State.unheld_streamer (s : State) (rb : Readback) : (s.unheld rb).control.streamer = s.control.streamer := by
  unfold State.unheld
  split <;> rfl

theorem Streamer.not_streaming {x : Streamer} (h : x.readback = none) (rb : Readback) : x ≠ .streaming rb := by
  rintro rfl
  cases h

/-- No readback, and no path read-held. -/
theorem readbackSound_idle {t : State} (ended : t.control.streamer.readback = none) (free : ∀ p, (t.path p).readHeld = false) :
    ReadbackSound t :=
  ⟨fun rb h => absurd h (Streamer.not_streaming ended rb), fun p _ =>
    iff_of_false (by simp [free p]) fun ⟨rb, h, _⟩ => Streamer.not_streaming ended rb h⟩

theorem PathsCore.held_iff {s : State} (h : PathsCore s) (p : Nat) :
    (s.path p).readHeld = true ↔ ∃ rb, s.control.streamer = .streaming rb ∧ rb.set = .background ∧ rb.path = p := by
  by_cases hp : p < 64
  · exact h.readback.2 p hp
  · refine iff_of_false ?_ fun ⟨rb, reading, _, e⟩ => hp (e ▸ (h.readback.1 rb reading).1)
    simp [State.path, List.getElem?_eq_none (by rw [h.paths]; omega : s.paths.length ≤ p), PathRecord.unused]

theorem State.unheld_frame (s : State) (rb : Readback) :
    (s.unheld rb).channels = s.channels ∧ (s.unheld rb).paths.length = s.paths.length ∧ (s.unheld rb).comparator = s.comparator ∧
      (s.unheld rb).seed = s.seed := by
  unfold State.unheld
  split <;> simp

/-- Read-held flags alone rewritten. -/
theorem PathsCore.rehold {s t : State} (h : PathsCore s) {held : Nat → Bool} (path : ∀ p, t.path p = { s.path p with readHeld := held p })
    (free : ∀ p, (s.path p).state = .unused → held p = false) (channels : t.channels = s.channels)
    (count : t.paths.length = s.paths.length) (comparator : t.comparator = s.comparator) (seed : t.seed = s.seed)
    (readback : ReadbackSound t) : PathsCore t := by
  have channel : ∀ c, t.channel c = s.channel c := fun c => by simp [State.channel, channels]
  refine ⟨channels ▸ h.channels, count.trans h.paths, fun p => ?_, fun p => ?_, comparator ▸ h.comparator,
    listsSound_same h.lists (fun c => by rw [channel]) (fun p => by rw [path]) (fun p => by rw [path]) fun p => by rw [path],
    queueSound_same h.queue (by rw [seed]) (fun p => by rw [path]) fun p _ => by rw [path]; rfl, readback⟩
  · rw [path]
    intro unused
    rw [h.blank p unused, free p unused]
    rfl
  · rw [path]
    exact h.used p

theorem PathsCore.unheld {s : State} (h : PathsCore s) {rb : Readback} (reading : s.control.streamer = .streaming rb) {x : Streamer}
    (ended : x.readback = none) : PathsCore ((s.setStreamer x).unheld rb) := by
  have path : ∀ p, ((s.setStreamer x).unheld rb).path p = { s.path p with readHeld := false } := by
    intro p
    rw [State.unheld_path]
    refine congrArg (fun b => { s.path p with readHeld := b }) ?_
    split
    · rfl
    · next other =>
      refine Bool.eq_false_iff.mpr fun held => other ?_
      obtain ⟨rb', reading', background, e⟩ := (h.held_iff p).mp held
      obtain rfl := Streamer.streaming.inj (reading.symm.trans reading')
      exact ⟨background, e⟩
  have readback : ReadbackSound ((s.setStreamer x).unheld rb) :=
    readbackSound_idle (by rw [State.unheld_streamer]; exact ended) fun p => by rw [path]
  obtain ⟨channels, count, comparator, seed⟩ := (s.setStreamer x).unheld_frame rb
  exact h.rehold path (fun _ _ => rfl) channels count comparator seed readback

/-- A pending promote stands only for the channel that owns the path being read (R75). -/
theorem PathsCore.pending_owner {s : State} (h : PathsCore s) {rb : Readback} (reading : s.control.streamer = .streaming rb) {c : Nat}
    (hc : c < 24) (pending : PendingAt s c) (set : (s.channel c).comparison.pendingPromote = true) : (s.path rb.path).owner = some c := by
  obtain ⟨p, hp, live⟩ := List.any_eq_true.mp (pending set).1
  obtain ⟨rb', reading', rfl, _⟩ := State.liveReadbackOf_iff.mp live
  obtain rfl := Streamer.streaming.inj (reading.symm.trans reading')
  exact h.listed_owner hc hp

theorem pathsSound_endReadback (s : State) (rb : Readback) (x : Streamer) (h : PathsSound s) (reading : s.control.streamer = .streaming rb)
    (ended : x.readback = none) : PathsSound ((s.setStreamer x).finishReadback rb) := by
  obtain ⟨core, pending⟩ := (pathsSound_iff s).mp h
  have core' := core.unheld reading ended
  have channel : ∀ c, ((s.setStreamer x).unheld rb).channel c = s.channel c := fun c => State.unheld_channel _ rb c
  refine (pathsSound_iff _).mpr ?_
  rcases (s.setStreamer x).finishReadback_cases rb with ⟨e, none⟩ | ⟨c, owner, set, e⟩
  · rw [e]
    refine ⟨core', fun k hk => pendingAt_clear (Bool.eq_false_iff.mpr fun set => ?_)⟩
    rw [channel] at set
    exact Bool.eq_false_iff.mp (none k (core.pending_owner reading hk (pending k hk) set)) set
  · obtain ⟨c', hc, owner', _⟩ := core.owned (core.read_used reading)
    obtain rfl : c' = c := Option.some.inj (owner'.symm.trans owner)
    have settled : ((s.setStreamer x).unheld rb).Settled c' := by
      intro p hp
      rw [channel] at hp
      rw [State.unheld_path]
      have ready : ((s.setStreamer x).path p).state = .ready := (pending c' hc set).2 p hp
      simp [ready]
    rw [e]
    refine ⟨core'.copies true hc settled _, fun k hk => ?_⟩
    by_cases hne : c' = k
    · exact hne ▸ pendingAt_put (by rw [(State.beginCopies_only _ true c').channels, core'.channels]; exact hc) rfl
    · refine pendingAt_copies core' true hc _ hk hne (pendingAt_clear (Bool.eq_false_iff.mpr fun set' => hne ?_))
      rw [channel] at set'
      exact Option.some.inj (owner.symm.trans (core.pending_owner reading hk (pending k hk) set'))


theorem pathsSound_copies (s : State) (flip : Bool) (c : Nat) (m : ComparisonState) (h : PathsSound s) (hc : c < s.channels.length)
    (settled : s.Settled c) (clear : m.pendingPromote = false) : PathsSound ((s.beginCopies flip c).putComparison c m) := by
  obtain ⟨core, pending⟩ := (pathsSound_iff s).mp h
  have hc' : c < 24 := core.channels ▸ hc
  refine (pathsSound_iff _).mpr ⟨core.copies flip hc' settled m, fun k hk => ?_⟩
  by_cases hne : c = k
  · exact hne ▸ pendingAt_put ((s.beginCopies_only flip c).channels ▸ hc) clear
  · exact pendingAt_copies core flip hc' m hk hne (pending k hk)

/-- A channel's comparison state replaced: only its own pending promote is left to show. -/
theorem pathsSound_putComparison (s : State) (c : Nat) (m : ComparisonState) (h : PathsSound s)
    (own : c < 24 → PendingAt (s.putComparison c m) c) : PathsSound (s.putComparison c m) := by
  obtain ⟨core, pending⟩ := (pathsSound_iff s).mp h
  refine (pathsSound_iff _).mpr ⟨core.putChannel c _ rfl, fun k hk => ?_⟩
  by_cases hne : c = k
  · exact hne ▸ own (hne ▸ hk)
  · have channel := s.channel_putChannel_ne c k { s.channel c with comparison := m } hne
    refine pendingAt_same (pending k hk) ?_ ?_ (fun _ => Iff.rfl) fun _ _ ready => ready
    · exact congrArg (fun ch => ch.comparison.pendingPromote) channel
    · exact congrArg Channel.paths channel

theorem pathsSound_defer (s : State) (c : Nat) (m : ComparisonState) (h : PathsSound s) (settled : s.Settled c)
    (reading : (s.channel c).paths.any s.liveReadbackOf = true) : PathsSound (s.putComparison c m) := by
  obtain ⟨core, _⟩ := (pathsSound_iff s).mp h
  refine pathsSound_putComparison s c m h fun hc _ => ?_
  have list : ((s.putComparison c m).channel c).paths = (s.channel c).paths :=
    State.channel_putChannel_congr Channel.paths s c { s.channel c with comparison := m } rfl c
  rw [list]
  exact ⟨reading, fun p hp => core.settled_ready hc settled hp⟩

/-! ### Starting and advancing a readback -/

theorem State.startReadback_frame (s : State) (rb : Readback) :
    (s.startReadback rb).control.streamer = .streaming rb ∧ (s.startReadback rb).channels = s.channels ∧
      (s.startReadback rb).paths.length = s.paths.length ∧ (s.startReadback rb).comparator = s.comparator ∧
      (s.startReadback rb).seed = s.seed := by
  unfold State.startReadback
  dsimp only
  split <;> simp [State.setStreamer]

theorem pathsSound_startReadback (s : State) (rb : Readback) (h : PathsSound s) (idle : s.control.streamer = .idle) (inTable : rb.path < 64)
    (used : (s.path rb.path).state ≠ .unused) (some : 1 ≤ rb.remaining) (within : rb.next + rb.remaining ≤ (s.path rb.path).length) :
    PathsSound (s.startReadback rb) := by
  obtain ⟨core, pending⟩ := (pathsSound_iff s).mp h
  have free : ∀ p, (s.path p).readHeld = false := fun p => Bool.eq_false_iff.mpr fun held => by
    obtain ⟨_, reading, _⟩ := (core.held_iff p).mp held
    rw [idle] at reading
    cases reading
  obtain ⟨streamer, channels, count, comparator, seed⟩ := s.startReadback_frame rb
  have path : ∀ p, (s.startReadback rb).path p = { s.path p with readHeld := decide (rb.set = .background ∧ rb.path = p) } := by
    intro p
    unfold State.startReadback
    dsimp only
    split
    · next background =>
      have set : rb.set = .background := background
      rw [State.path_putPath]
      by_cases e : rb.path = p
      · subst e
        rw [if_pos ⟨rfl, core.paths ▸ inTable⟩]
        simp only [set, and_self, decide_true]
        rfl
      · rw [if_neg fun e' => e e'.1]
        simp only [e, and_false, decide_false, ← free p]
        rfl
    · next live =>
      have set : rb.set ≠ .background := live
      simp only [set, false_and, decide_false, ← free p]
      rfl
  have readback : ReadbackSound (s.startReadback rb) := by
    refine ⟨fun rb' e => ?_, fun p _ => ?_⟩
    · obtain rfl := Streamer.streaming.inj (streamer.symm.trans e)
      rw [path]
      exact ⟨inTable, used, some, within⟩
    · rw [path, streamer]
      simp
  have fresh : ∀ p, (s.path p).state = .unused → decide (rb.set = .background ∧ rb.path = p) = false := by
    rintro p unused
    refine decide_eq_false fun e => used ?_
    rw [e.2]
    exact unused
  refine (pathsSound_iff _).mpr ⟨?_, fun c hc => pendingAt_clear (Bool.eq_false_iff.mpr fun set => ?_)⟩
  · exact core.rehold path fresh channels count comparator seed readback
  · rw [show (s.startReadback rb).channel c = s.channel c by simp [State.channel, channels]] at set
    obtain ⟨p, _, live⟩ := List.any_eq_true.mp (pending c hc set).1
    simp [State.liveReadbackOf, idle] at live

theorem pathsSound_advanceReadback (s : State) (rb : Readback) (h : PathsSound s) (reading : s.control.streamer = .streaming rb)
    (more : 1 < rb.remaining) : PathsSound (s.setStreamer (.streaming { rb with next := rb.next + 1, remaining := rb.remaining - 1 })) := by
  obtain ⟨core, pending⟩ := (pathsSound_iff s).mp h
  obtain ⟨inTable, used, _, within⟩ := core.readback.1 rb reading
  have readback : ReadbackSound (s.setStreamer (.streaming { rb with next := rb.next + 1, remaining := rb.remaining - 1 })) := by
    refine ⟨fun rb' e => ?_, fun p hp => ?_⟩
    · obtain rfl := Streamer.streaming.inj e
      exact ⟨inTable, used, by show 1 ≤ rb.remaining - 1; omega,
        by show rb.next + 1 + (rb.remaining - 1) ≤ (s.path rb.path).length; omega⟩
    · refine (core.readback.2 p hp).trans ?_
      rw [reading]
      simp [State.setStreamer]
  refine (pathsSound_iff _).mpr ⟨{ core with readback := readback, queue := core.queue, lists := core.lists }, fun c hc set => ?_⟩
  obtain ⟨live, ready⟩ := pending c hc set
  have reads : (s.setStreamer (.streaming { rb with next := rb.next + 1, remaining := rb.remaining - 1 })).liveReadbackOf = s.liveReadbackOf := by
    funext p
    simp [State.liveReadbackOf, reading, State.setStreamer]
  exact ⟨reads ▸ live, ready⟩


/-! ### Path commands -/

/-- The owner channel's record rewritten with no pending promote, the other channels' as they were, and their paths too. -/
theorem pendingAt_owner {s t : State} (h : PathsCore s) {p c : Nat} (hc : c < 24) {x : Channel} (channels : t.channels = s.channels.set c x)
    (clear : x.comparison.pendingPromote = false) (path : ∀ q, q ≠ p → t.path q = s.path q)
    (elsewhere : ∀ k < 24, c ≠ k → p ∉ (s.channel k).paths)
    (streaming : ∀ rb, rb.path ≠ p → (t.control.streamer = .streaming rb ↔ s.control.streamer = .streaming rb))
    (pending : ∀ k < 24, PendingAt s k) : ∀ k < 24, PendingAt t k := by
  intro k hk
  have channel : t.channel k = (s.putChannel c x).channel k := by simp [State.channel, channels]
  by_cases hne : c = k
  · subst hne
    refine pendingAt_clear ?_
    rw [channel, s.channel_putChannel_self c x (h.channels ▸ hc), clear]
  · rw [s.channel_putChannel_ne c k x hne] at channel
    intro set
    rw [channel] at set ⊢
    obtain ⟨live, ready⟩ := pending k hk set
    have other : ∀ q ∈ (s.channel k).paths, q ≠ p := fun q hq e => elsewhere k hk hne (e ▸ hq)
    refine ⟨?_, fun q hq => by rw [path q (other q hq)]; exact ready q hq⟩
    obtain ⟨q, hq, reading⟩ := List.any_eq_true.mp live
    obtain ⟨rb, streamer, e, set⟩ := State.liveReadbackOf_iff.mp reading
    exact List.any_eq_true.mpr ⟨q, hq, State.liveReadbackOf_iff.mpr ⟨rb, (streaming rb (e ▸ other q hq)).mpr streamer, e, set⟩⟩

theorem pathsSound_setStep (s : State) (p n : Nat) (h : PathsSound s) (used : (s.path p).state ≠ .unused) :
    PathsSound (s.putPath p { s.path p with step := n }) := by
  obtain ⟨core, pending⟩ := (pathsSound_iff s).mp h
  have hp := s.path_lt p used
  have path := State.path_of_set (t := s.putPath p { s.path p with step := n }) rfl hp
  have state : ∀ q, ((s.putPath p { s.path p with step := n }).path q).state = (s.path q).state := fun q => by
    rw [path]
    split
    · next e => rw [← e]
    · rfl
  refine (pathsSound_iff _).mpr ⟨core.rewrite (p := p) rfl used used rfl rfl (core.used p used) rfl (fun _ => rfl) rfl ?_ ?_, fun c hc => ?_⟩
  · refine queueSound_same core.queue rfl (fun q => by rw [state]) fun q _ => ?_
    rw [path]
    split
    · next e => exact e ▸ rfl
    · rfl
  · exact readbackSound_put core.readback hp rfl (fun _ => Iff.rfl) rfl fun _ _ _ => ⟨used, rfl⟩
  · exact pendingAt_same (pending c hc) rfl rfl (fun _ => Iff.rfl) fun q _ ready => (state q).trans ready

/-- A path that is not being read and has its owner: what truncation and extension start from. -/
theorem PathsCore.not_reading {s : State} {p : Nat} (idle : s.readbackOf p = false) (rb : Readback)
    (reading : s.control.streamer = .streaming rb) : rb.path ≠ p := fun e => by
  rw [State.readbackOf_iff.mpr ⟨rb, reading, e⟩] at idle
  cases idle

theorem State.lists_set {s t : State} {c : Nat} {x : Channel} (channels : t.channels = s.channels.set c x)
    (list : x.paths = (s.channel c).paths) (k : Nat) : (t.channel k).paths = (s.channel k).paths := by
  rw [show t.channel k = (s.putChannel c x).channel k by simp [State.channel, channels]]
  exact State.channel_putChannel_congr Channel.paths s c x list k

theorem pathsSound_truncate (s : State) (p n : Nat) (h : PathsSound s) (ready : (s.path p).state = .ready) (idle : s.readbackOf p = false)
    (some : 1 ≤ n) (shorter : n < (s.path p).length) : PathsSound (s.truncate p n) := by
  obtain ⟨core, pending⟩ := (pathsSound_iff s).mp h
  have used : (s.path p).state ≠ .unused := by simp [ready]
  have hp := s.path_lt p used
  obtain ⟨c, hc, owner, _⟩ := core.owned used
  rw [State.truncate_eq s p n c owner]
  have cut : ((s.path p).chain.take n).length = n := by
    rw [List.length_take]
    exact min_eq_left shorter.le
  refine (pathsSound_iff _).mpr ⟨core.rewrite (p := p) rfl used used rfl rfl (some.trans cut.ge) (by simp)
    (State.lists_set rfl rfl) rfl ?_ ?_, pendingAt_owner core (p := p) hc rfl rfl (fun q e => ?_) (fun k hk e => core.not_listed hk e owner)
    (fun _ _ => Iff.rfl) pending⟩
  · refine queueSound_same core.queue rfl (fun q => ?_) fun q seeding => ?_
    all_goals
      rw [State.path_of_set rfl hp]
      split
    · next e => exact e ▸ Iff.rfl
    · rfl
    · next e => rw [← e, ready] at seeding; cases seeding
    · rfl
  · exact readbackSound_put core.readback hp rfl (fun _ => Iff.rfl) rfl fun rb reading e => absurd e (PathsCore.not_reading idle rb reading)
  · exact State.path_set_ne rfl e

theorem pathsSound_extend (s : State) (p n : Nat) (h : PathsSound s) (ready : (s.path p).state = .ready) (idle : s.readbackOf p = false)
    (longer : (s.path p).length < n) (room : n - (s.path p).length ≤ s.pool.free.length) : PathsSound (s.extend p n) := by
  obtain ⟨core, pending⟩ := (pathsSound_iff s).mp h
  have used : (s.path p).state ≠ .unused := by simp [ready]
  have hp := s.path_lt p used
  obtain ⟨c, hc, owner, _⟩ := core.owned used
  unfold PathRecord.length at longer room
  have grown : ((s.path p).chain ++ s.pool.free.take (n - (s.path p).chain.length)).length = n := by
    rw [List.length_append, List.length_take]
    omega
  rw [State.extend_eq s p n c owner]
  refine (pathsSound_iff _).mpr ⟨core.rewrite (p := p) rfl used (by simp) rfl rfl (grown.ge.trans' (by omega)) (by simp)
    (State.lists_set rfl rfl) rfl ?_ ?_, pendingAt_owner core (p := p) hc rfl rfl (fun q e => ?_) (fun k hk e => core.not_listed hk e owner)
    (fun _ _ => Iff.rfl) pending⟩
  · refine queueSound_append (p := p) core.queue (core.paths ▸ hp) (by simp [ready]) (fun q e => ?_) ?_ rfl rfl ?_ (Nat.sub_pos_of_lt longer) rfl
    · exact State.path_set_ne rfl e
    · rw [State.path_set_self rfl hp]
    · refine Eq.trans ?_ (congrArg PathRecord.length (State.path_set_self rfl hp)).symm
      exact (Nat.add_sub_of_le longer.le).trans grown.symm
  · exact readbackSound_put core.readback hp rfl (fun _ => Iff.rfl) rfl fun rb reading e => absurd e (PathsCore.not_reading idle rb reading)
  · exact State.path_set_ne rfl e

theorem State.channel_set_self {s t : State} {c : Nat} {x : Channel} (channels : t.channels = s.channels.set c x) (hc : c < s.channels.length) :
    t.channel c = x := by simp [State.channel, channels, hc]

theorem State.channel_set_ne {s t : State} {c k : Nat} {x : Channel} (channels : t.channels = s.channels.set c x) (h : c ≠ k) :
    t.channel k = s.channel k := by
  simp [State.channel, channels, List.getElem?_set_ne h]

/-- An UNUSED record taken into use at the end of its owner's list, on a reference that no path of the list is on (R11, R14). -/
theorem listsSound_insert {s t : State} (h : PathsCore s) {p c r : Nat} {x : PathRecord} {y : Channel} (hp : p < 64) (hc : c < 24)
    (unused : (s.path p).state = .unused) (few : (s.channel c).paths.length < 4)
    (fresh : ∀ q ∈ (s.channel c).paths, (s.path q).reference ≠ some r) (paths : t.paths = s.paths.set p x) (used : x.state ≠ .unused)
    (owner : x.owner = some c) (reference : x.reference = some r) (channels : t.channels = s.channels.set c y)
    (list : y.paths = (s.channel c).paths ++ [p]) : ListsSound t := by
  have self := State.path_set_self paths (h.paths ▸ hp)
  have other : ∀ q, q ≠ p → t.path q = s.path q := fun q e => State.path_set_ne paths e
  have absent : ∀ k < 24, ∀ q ∈ (s.channel k).paths, q ≠ p := fun k hk q hq e => h.listed_used hk hq (e ▸ unused)
  have own := State.channel_set_self channels (h.channels ▸ hc)
  refine ⟨fun k hk => ?_, fun q hq used' => ?_⟩
  · obtain ⟨nodup, four, members, distinct⟩ := h.lists.1 k hk
    have same : (s.channel k).paths.map (fun q => (t.path q).reference) = (s.channel k).paths.map fun q => (s.path q).reference :=
      List.map_congr_left fun q hq => by rw [other q (absent k hk q hq)]
    by_cases hne : c = k
    · subst hne
      rw [own, list]
      refine ⟨?_, by simpa using few, fun q hq => ?_, ?_⟩
      · exact nodup.append (List.nodup_singleton p) (by simpa using fun hq => absent c hc p hq rfl)
      · rcases List.mem_append.mp hq with old | new
        · rw [other q (absent c hc q old)]
          exact members q old
        · obtain rfl := List.mem_singleton.mp new
          rw [self]
          exact ⟨hp, used, owner⟩
      · rw [List.map_append, same, List.map_singleton, self, reference]
        refine distinct.append (List.nodup_singleton _) ?_
        simpa using fresh
    · rw [State.channel_set_ne channels hne, same]
      refine ⟨nodup, four, fun q hq => ?_, distinct⟩
      rw [other q (absent k hk q hq)]
      exact members q hq
  · by_cases e : q = p
    · subst e
      exact ⟨c, hc, by rw [self]; exact owner, by rw [own, list]; simp⟩
    · rw [other q e] at used' ⊢
      obtain ⟨k, hk, owner', member⟩ := h.lists.2 q hq used'
      refine ⟨k, hk, owner', ?_⟩
      by_cases hne : c = k
      · subst hne
        rw [own, list]
        exact List.mem_append_left _ member
      · rwa [State.channel_set_ne channels hne]

/-- A record made UNUSED and taken out of its owner's list (R11, R15). -/
theorem listsSound_erase {s t : State} (h : PathsCore s) {p c : Nat} {x : PathRecord} {y : Channel} (hp : p < 64) (hc : c < 24)
    (owner : (s.path p).owner = some c) (paths : t.paths = s.paths.set p x) (unused : x.state = .unused)
    (channels : t.channels = s.channels.set c y) (list : y.paths = (s.channel c).paths.filter fun q => q != p) : ListsSound t := by
  have self := State.path_set_self paths (h.paths ▸ hp)
  have other : ∀ q, q ≠ p → t.path q = s.path q := fun q e => State.path_set_ne paths e
  have own := State.channel_set_self channels (h.channels ▸ hc)
  refine ⟨fun k hk => ?_, fun q hq used => ?_⟩
  · obtain ⟨nodup, four, members, distinct⟩ := h.lists.1 k hk
    by_cases hne : c = k
    · subst hne
      rw [own, list]
      have kept : ∀ q ∈ (s.channel c).paths.filter (fun q => q != p), q ∈ (s.channel c).paths ∧ q ≠ p := fun q hq => by
        simpa using hq
      refine ⟨nodup.filter _, (List.length_filter_le _ _).trans four, fun q hq => ?_, ?_⟩
      · rw [other q (kept q hq).2]
        exact members q (kept q hq).1
      · rw [List.map_congr_left fun q hq => by rw [other q (kept q hq).2]]
        exact distinct.sublist (List.filter_sublist.map _)
    · have absent : ∀ q ∈ (s.channel k).paths, q ≠ p := fun q hq e => h.not_listed hk hne (e ▸ owner) hq
      rw [State.channel_set_ne channels hne, List.map_congr_left fun q hq => by rw [other q (absent q hq)]]
      refine ⟨nodup, four, fun q hq => ?_, distinct⟩
      rw [other q (absent q hq)]
      exact members q hq
  · have e : q ≠ p := fun e => used (by rw [e, self]; exact unused)
    rw [other q e] at used ⊢
    obtain ⟨k, hk, owner', member⟩ := h.lists.2 q hq used
    refine ⟨k, hk, owner', ?_⟩
    by_cases hne : c = k
    · subst hne
      rw [own, list]
      simpa using ⟨member, e⟩
    · rwa [State.channel_set_ne channels hne]

theorem pathsSound_allocate (s : State) (p c r n step : Nat) (h : PathsSound s) (hp : p < 64) (unused : (s.path p).state = .unused)
    (hc : c < 24) (fresh : ∀ q ∈ (s.channel c).paths, (s.path q).reference ≠ some r) (few : (s.channel c).paths.length < 4) (some : 1 ≤ n)
    (room : n ≤ s.pool.free.length) : PathsSound (s.allocate p c r n step) := by
  obtain ⟨core, pending⟩ := (pathsSound_iff s).mp h
  have hp' : p < s.paths.length := core.paths ▸ hp
  have taken : (s.pool.free.take n).length = n := by
    rw [List.length_take]
    exact min_eq_left room
  have blank := core.blank p unused
  have unread : ∀ rb, s.control.streamer = .streaming rb → rb.path ≠ p := fun rb reading e =>
    core.read_used reading (e ▸ unused)
  rw [State.allocate_eq]
  refine (pathsSound_iff _).mpr ⟨⟨by simp [core.channels], by simp [core.paths], fun q => ?_, fun q => ?_, core.comparator,
    listsSound_insert core hp hc unused few fresh rfl (by simp) rfl rfl rfl rfl, ?_, ?_⟩,
    pendingAt_owner core (p := p) hc rfl rfl (fun q e => State.path_set_ne rfl e)
      (fun k hk _ hq => core.listed_used hk hq unused) (fun _ _ => Iff.rfl) pending⟩
  · rw [State.path_of_set rfl hp']
    split
    · exact fun e => nomatch e
    · exact core.blank q
  · rw [State.path_of_set rfl hp']
    split
    · exact fun _ => some.trans taken.ge
    · exact core.used q
  · refine queueSound_append core.queue hp (by simp [unused]) (fun q e => State.path_set_ne rfl e) ?_ rfl rfl ?_ some rfl
    · rw [State.path_set_self rfl hp']
    · refine Eq.trans ?_ (congrArg PathRecord.length (State.path_set_self rfl hp')).symm
      exact (Nat.zero_add n).trans taken.symm
  · exact readbackSound_put core.readback hp' rfl (fun _ => Iff.rfl) (by rw [blank]; rfl) fun rb reading e => absurd e (unread rb reading)

theorem abortedWhere_streaming (test : Readback → Bool) (x : Streamer) (rb : Readback) :
    abortedWhere test x = .streaming rb ↔ x = .streaming rb ∧ test rb = false := by
  cases x with
  | streaming rb' =>
    by_cases e : test rb' = true
    · refine iff_of_false (by simp [abortedWhere, e]) fun ⟨same, fails⟩ => ?_
      obtain rfl := Streamer.streaming.inj same
      simp [e] at fails
    · rw [Bool.not_eq_true] at e
      refine ⟨fun same => ?_, fun ⟨same, _⟩ => by simpa [abortedWhere, e] using same⟩
      obtain rfl := Streamer.streaming.inj (show Streamer.streaming rb' = .streaming rb by simpa [abortedWhere, e] using same)
      exact ⟨rfl, e⟩
  | idle => simp [abortedWhere]
  | closing rb' => simp [abortedWhere]

theorem pathsSound_release (s : State) (p : Nat) (h : PathsSound s) (used : (s.path p).state ≠ .unused) : PathsSound (s.release p) := by
  obtain ⟨core, pending⟩ := (pathsSound_iff s).mp h
  have hp := s.path_lt p used
  obtain ⟨c, hc, owner, _⟩ := core.owned used
  rw [State.release_eq s p c owner]
  refine (pathsSound_iff _).mpr ⟨⟨by simp [core.channels], by simp [core.paths], fun q => ?_, fun q => ?_, core.comparator,
    listsSound_erase core (core.paths ▸ hp) hc owner rfl rfl rfl rfl,
    queueSound_remove core.queue (fun q e => State.path_set_ne rfl e) ?_ rfl, ?_⟩,
    pendingAt_owner core (p := p) hc rfl rfl (fun q e => State.path_set_ne rfl e) (fun k hk e => core.not_listed hk e owner) ?_ pending⟩
  · rw [State.path_of_set rfl hp]
    split
    · exact fun _ => rfl
    · exact core.blank q
  · rw [State.path_of_set rfl hp]
    split
    · exact fun e => absurd rfl e
    · exact core.used q
  · rw [State.path_set_self rfl hp]
    simp [PathRecord.unused]
  · refine ⟨fun rb reading => ?_, fun q hq => ?_⟩
    · obtain ⟨reading', other⟩ := (abortedWhere_streaming _ _ rb).mp reading
      rw [State.path_set_ne rfl (by simpa using other)]
      exact core.readback.1 rb reading'
    · simp only [abortedWhere_streaming]
      by_cases e : q = p
      · subst e
        rw [State.path_set_self rfl hp]
        refine iff_of_false (by simp [PathRecord.unused]) fun ⟨rb, ⟨_, other⟩, _, e⟩ => ?_
        simp [e] at other
      · rw [State.path_set_ne rfl e, core.readback.2 q hq]
        refine exists_congr fun rb =>
          ⟨fun ⟨reading, set, same⟩ => ⟨⟨reading, ?_⟩, set, same⟩, fun ⟨⟨reading, _⟩, rest⟩ => ⟨reading, rest⟩⟩
        simpa [same] using e
  · exact fun rb other => (abortedWhere_streaming _ _ rb).trans (by simp [other])

/-! ### The seed engine's steps -/

theorem pathsSound_complete (s : State) (q : SeedRequest) (rest : List SeedRequest) (h : PathsSound s) (queue : s.seed.queue = q :: rest) :
    PathsSound ((s.setQueue rest).putPath q.path { s.path q.path with state := .ready }) := by
  obtain ⟨core, pending⟩ := (pathsSound_iff s).mp h
  have served : q ∈ s.seed.queue := by simp [queue]
  obtain ⟨nodup, requests, covered, _⟩ := core.queue
  obtain ⟨inTable, _⟩ := covered q served
  have seeding : (s.path q.path).state = .seeding := (requests _ inTable).mpr ⟨q, served, rfl⟩
  have used : (s.path q.path).state ≠ .unused := by simp [seeding]
  have hp := s.path_lt q.path used
  rw [queue, List.map_cons, List.nodup_cons] at nodup
  have left : rest = s.seed.queue.filter fun r => r.path != q.path := by
    rw [queue, List.filter_cons_of_neg (by simp)]
    refine (List.filter_eq_self.mpr fun r hr => ?_).symm
    simpa using fun e => nodup.1 (List.mem_map.mpr ⟨r, hr, e⟩)
  refine (pathsSound_iff _).mpr ⟨core.rewrite (p := q.path) rfl used (by simp) rfl rfl (core.used _ used) rfl (fun _ => rfl) rfl ?_ ?_,
    fun c hc => pendingAt_same (pending c hc) rfl rfl (fun _ => Iff.rfl) fun p _ ready => ?_⟩
  · refine queueSound_remove (p := q.path) core.queue (fun p e => State.path_set_ne rfl e) ?_ left
    rw [State.path_set_self rfl hp]
    simp
  · exact readbackSound_put core.readback hp rfl (fun _ => Iff.rfl) rfl fun _ _ _ => ⟨by simp, rfl⟩
  · rw [State.path_of_set rfl hp]
    split
    · rfl
    · exact ready

theorem pathsSound_progress (s : State) (q : SeedRequest) (rest : List SeedRequest) (h : PathsSound s) (queue : s.seed.queue = q :: rest)
    (more : q.done + 1 < q.count) : PathsSound (s.setQueue ({ q with done := q.done + 1 } :: rest)) := by
  obtain ⟨core, pending⟩ := (pathsSound_iff s).mp h
  obtain ⟨nodup, requests, covered, begun⟩ := core.queue
  rw [queue] at nodup begun
  simp only [queue, List.mem_cons, exists_eq_or_imp, forall_eq_or_imp] at requests covered
  obtain ⟨⟨inTable, covers, _⟩, others⟩ := covered
  have sound : QueueSound (s.setQueue ({ q with done := q.done + 1 } :: rest)) := by
    refine ⟨nodup, fun p hp => ?_, fun r hr => ?_, begun⟩
    · show _ ↔ ∃ r ∈ { q with done := q.done + 1 } :: rest, r.path = p
      simp only [List.mem_cons, exists_eq_or_imp]
      exact requests p hp
    · rcases List.mem_cons.mp hr with rfl | hr
      · exact ⟨inTable, covers, more⟩
      · exact others r hr
  exact (pathsSound_iff _).mpr ⟨{ core with queue := sound, lists := core.lists, readback := core.readback }, pending⟩

/-! ### RESET ADAPTATION and the reset state -/

theorem State.abortReadback_ended (s : State) : s.abortReadback.control.streamer.readback = none := by
  unfold State.abortReadback
  split
  · next rb _ =>
    rcases (s.setStreamer (.closing rb)).finishReadback_cases rb with ⟨e, _⟩ | ⟨c, _, _, e⟩
    · rw [e, State.unheld_streamer]
      rfl
    · have only := ((s.setStreamer (.closing rb)).unheld rb).beginCopies_only true c
      have control : (((s.setStreamer (.closing rb)).unheld rb).applyPromotion c).control =
        ((s.setStreamer (.closing rb)).unheld rb).control := only.control
      rw [e, control, State.unheld_streamer]
      rfl
  · next idle => rw [idle]; rfl
  · next rb closing => rw [closing]; rfl

theorem PathRecord.relearning_eq (r : PathRecord) (h : r.state = .unused → r = PathRecord.unused) :
    r.relearning = { r with live := .a, state := if r.state = .unused then .unused else .seeding, readHeld := false } := by
  unfold PathRecord.relearning
  split
  · next unused => rw [h unused]; rfl
  · rfl

/-- The rebuilt seed queue: a whole CLEAR for each path in use (R92). -/
theorem mem_clears (r : Nat → PathRecord) (l : List Nat) (q : SeedRequest) :
    q ∈ l.filterMap (fun p => clearOf p (r p)) ↔ ∃ p ∈ l, (r p).state ≠ .unused ∧ q = wholeChain p .clear (r p) := by
  simp only [List.mem_filterMap, clearOf]
  refine exists_congr fun p => and_congr_right fun _ => ?_
  split
  · next unused => simp [unused]
  · next used => simp [used, eq_comm]

theorem clears_paths (r : Nat → PathRecord) (l : List Nat) :
    (l.filterMap fun p => clearOf p (r p)).map SeedRequest.path = l.filter fun p => (r p).state != .unused := by
  induction l with
  | nil => rfl
  | cons p rest ih =>
    by_cases unused : (r p).state = .unused
    · simpa [clearOf, unused] using ih
    · simpa [clearOf, unused, wholeChain] using ih

theorem State.channel_map (s : State) (f : Channel → Channel) {c : Nat} (hc : c < s.channels.length) :
    (s.setChannels (s.channels.map f)).channel c = f (s.channel c) := by
  simp [State.channel, hc]

theorem pathsSound_clearAllPending (s : State) (h : PathsSound s) : PathsSound s.clearAllPending := by
  obtain ⟨core, _⟩ := (pathsSound_iff s).mp h
  refine (pathsSound_iff _).mpr ⟨core.same (List.length_map _) rfl (fun c => ?_) id rfl fun _ => Iff.rfl, fun c hc => pendingAt_clear ?_⟩
  · exact State.channel_map_congr Channel.paths (fun ch => { ch with comparison := { ch.comparison with pendingPromote := false } })
      (fun _ => rfl) s c
  · unfold State.clearAllPending
    rw [s.channel_map _ (core.channels ▸ hc)]

theorem pathsSound_abortReadback (s : State) (h : PathsSound s) : PathsSound s.abortReadback := by
  unfold State.abortReadback
  split
  · next rb reading => exact pathsSound_endReadback s rb _ h reading rfl
  · exact h
  · exact h

/-- What RESET ADAPTATION does once the work in flight is ended (R92). -/
def State.relearned (s : State) : State :=
  ((s.setPaths (s.paths.map PathRecord.relearning)).setQueue ((List.range Config.numPaths).filterMap fun p => clearOf p (s.path p))).setChannels
    (s.channels.map fun ch => { ch with comparison := ComparisonState.initial })

theorem State.resetAdaptation_eq (s : State) : s.resetAdaptation = s.clearAllPending.abortReadback.relearned := rfl

theorem PathsCore.relearned_path {s : State} (h : PathsCore s) (p : Nat) :
    s.relearned.path p =
      { s.path p with live := .a, state := if (s.path p).state = .unused then .unused else .seeding, readHeld := false } := by
  rw [← (s.path p).relearning_eq (h.blank p)]
  simp only [State.relearned, State.path, State.setChannels_paths, State.setQueue, State.setSeed_paths, State.setPaths_paths,
    List.getD_eq_getElem?_getD, List.getElem?_map]
  cases s.paths[p]? <;> rfl

theorem State.relearned_channel {s : State} {c : Nat} (hc : c < s.channels.length) :
    s.relearned.channel c = { s.channel c with comparison := ComparisonState.initial } :=
  State.channel_map ((s.setPaths _).setQueue _) (fun ch => { ch with comparison := ComparisonState.initial }) hc

theorem PathsCore.relearned_queue {s : State} (h : PathsCore s) : QueueSound s.relearned := by
  have requests : ∀ q, q ∈ s.relearned.seed.queue ↔
      ∃ p ∈ List.range 64, (s.path p).state ≠ .unused ∧ q = wholeChain p .clear (s.path p) :=
    mem_clears s.path (List.range 64)
  refine ⟨?_, fun p hp => ?_, fun q hq => ?_, fun q hq => ?_⟩
  · rw [show s.relearned.seed.queue.map SeedRequest.path = _ from clears_paths s.path (List.range 64)]
    exact List.nodup_range.filter _
  · rw [h.relearned_path]
    simp only [requests, List.mem_range]
    constructor
    · intro seeding
      have used : (s.path p).state ≠ .unused := fun unused => by simp [unused] at seeding
      exact ⟨_, ⟨p, hp, used, rfl⟩, rfl⟩
    · rintro ⟨_, ⟨p', _, used, rfl⟩, rfl⟩
      exact if_neg used
  · obtain ⟨p, hp, used, rfl⟩ := (requests q).mp hq
    rw [h.relearned_path]
    exact ⟨List.mem_range.mp hp, Nat.zero_add _, h.used p used⟩
  · obtain ⟨p, _, _, rfl⟩ := (requests q).mp (List.mem_of_mem_drop hq)
    rfl

/-- With no readback left, every path in use starts over (R92). -/
theorem pathsSound_relearned (s : State) (h : PathsCore s) (ended : s.control.streamer.readback = none) : PathsSound s.relearned := by
  have path := h.relearned_path
  have unused : ∀ p, (s.relearned.path p).state = .unused ↔ (s.path p).state = .unused := by
    intro p
    rw [path]
    by_cases e : (s.path p).state = .unused <;> simp [e]
  refine (pathsSound_iff _).mpr ⟨⟨(List.length_map _).trans h.channels, (List.length_map _).trans h.paths, fun p e => ?_, fun p e => ?_,
    h.comparator, listsSound_same h.lists (fun c => ?_) unused (fun p => by rw [path]) (fun p => by rw [path]), h.relearned_queue,
    readbackSound_idle ended fun p => by rw [path]⟩, fun c hc => pendingAt_clear ?_⟩
  · rw [path, h.blank p ((unused p).mp e)]
    rfl
  · rw [path]
    exact h.used p (mt (unused p).mpr e)
  · exact State.channel_map_congr Channel.paths (fun ch => { ch with comparison := ComparisonState.initial }) (fun _ => rfl)
      ((s.setPaths _).setQueue _) c
  · rw [State.relearned_channel (h.channels ▸ hc)]
    rfl

/-- The work in flight is ended first, which leaves no readback (R91). -/
theorem pathsSound_resetAdaptation (s : State) (h : PathsSound s) : PathsSound s.resetAdaptation := by
  rw [State.resetAdaptation_eq]
  exact pathsSound_relearned _ ((pathsSound_iff _).mp (pathsSound_abortReadback _ (pathsSound_clearAllPending s h))).1
    s.clearAllPending.abortReadback_ended

theorem pathsSound_reset : PathsSound State.reset := by
  have channel : ∀ c, State.reset.channel c = Channel.initial c := by
    intro c
    by_cases hc : c < 24 <;> simp [State.channel, State.reset, hc]
  have path : ∀ p, State.reset.path p = PathRecord.unused := by
    intro p
    rw [show State.reset.path p = (List.replicate 64 PathRecord.unused).getD p PathRecord.unused from rfl, List.getD_eq_getElem?_getD,
      List.getElem?_replicate]
    split <;> rfl
  refine (pathsSound_iff _).mpr ⟨⟨rfl, rfl, fun p _ => path p, fun p used => absurd (by rw [path]; rfl) used, by decide, ⟨fun c _ => ?_,
    fun p _ used => absurd (by rw [path]; rfl) used⟩, ⟨List.nodup_nil, fun p _ => ?_, fun q hq => absurd hq List.not_mem_nil,
    fun q hq => absurd hq List.not_mem_nil⟩,
    readbackSound_idle rfl fun p => by rw [path]; rfl⟩, fun c _ => pendingAt_clear (by rw [channel]; rfl)⟩
  · rw [channel]
    simp [Channel.initial]
  · rw [path]
    exact iff_of_false (by simp [PathRecord.unused]) fun ⟨q, hq, _⟩ => nomatch hq

/-- The laws of the paths survive every operation on the paths (R7, R9, R11, R74, R75, R82, R83). -/
theorem pathLaws : PathLaw PathsSound where
  reset := pathsSound_reset
  same := pathsSound_same
  clearPending := fun s c h => pathsSound_putComparison s c _ h fun hc => pendingAt_put (((pathsSound_iff s).mp h).1.channels ▸ hc) rfl
  allocate := fun s p c r n step h hp unused hc _ fresh few some _ room => pathsSound_allocate s p c r n step h hp unused hc fresh few some room
  release := pathsSound_release
  truncate := pathsSound_truncate
  extend := fun s p n h ready idle _ _ longer room => pathsSound_extend s p n h ready idle longer room
  setStep := pathsSound_setStep
  bulk := fun same _ h => pathsSound_same same h
  copies := pathsSound_copies
  defer := fun s c m h _ settled reading => pathsSound_defer s c m h settled reading
  startReadback := pathsSound_startReadback
  advanceReadback := pathsSound_advanceReadback
  endReadback := pathsSound_endReadback
  resetAdaptation := pathsSound_resetAdaptation
  complete := pathsSound_complete
  progress := pathsSound_progress

/-- Settles O60: the laws survive each operation on the paths, so every step. -/
theorem pathLawsKept : Obligations.PathLawsKept := fun _ _ e h => pathLaws.step h e

end Sys2Proof.Machine
end

section
/-! What the operations leave of three laws: the fault log's, the slots distinct, and every field in its range. First each operation by itself, then the block's window and the outbound period. -/

namespace Sys2Proof.Machine

open Sys2Proof.Safety

/-- The fault log's law, the distinct slots and the ranges survive from one state to the next. -/
structure Keeps (s t : State) : Prop where
  log : FaultLogSound s.unit → FaultLogSound t.unit
  slots : SlotsDistinct s → SlotsDistinct t
  ranges : FieldsInRange s → FieldsInRange t

theorem Keeps.refl (s : State) : Keeps s s := ⟨id, id, id⟩

theorem Keeps.trans {s t u : State} (h : Keeps s t) (k : Keeps t u) : Keeps s u :=
  ⟨k.log ∘ h.log, k.slots ∘ h.slots, k.ranges ∘ h.ranges⟩

theorem Keeps.foldl {α : Type} (f : State → α → State) (h : ∀ s x, Keeps s (f s x)) (l : List α) (s : State) : Keeps s (l.foldl f s) := by
  induction l generalizing s with
  | nil => exact .refl s
  | cons x l ih => exact (h s x).trans (ih _)

/-! ### The fault log's law -/

/-- The law reads the record, the statuses and the multiple flag alone. -/
theorem FaultLogSound.congr {u v : FaultUnit} (record : v.record = u.record) (status : v.status = u.status) (multiple : v.multiple = u.multiple)
    (h : FaultLogSound u) : FaultLogSound v := by
  unfold FaultLogSound FaultUnit.isSet at *
  rwa [record, status, multiple]

theorem State.setStatus_isSet (s : State) (c : FaultClass) : (s.setStatus c).unit.isSet c = true := by
  unfold State.setStatus
  rw [State.setUnit_unit, FaultUnit.isSet_or_bit]
  simp

theorem State.setStatus_log (s : State) (c : FaultClass) (h : FaultLogSound s.unit) : FaultLogSound (s.setStatus c).unit := by
  have kept := (s.setStatus_reports c).statuses
  unfold FaultLogSound at h ⊢
  have record : (s.setStatus c).unit.record = s.unit.record := rfl
  rw [record]
  cases occupied : s.unit.record with
  | none => rwa [occupied] at h
  | some r =>
    rw [occupied] at h
    exact kept r.cls h

/-- A raise's entry in the log keeps its law where the class's status is set. -/
theorem State.noteRaise_log (s : State) (c : FaultClass) (x : Subject) (t : Option Byte) (set : s.unit.isSet c = true)
    (h : FaultLogSound s.unit) : FaultLogSound (s.noteRaise c x t).unit := by
  unfold State.noteRaise
  cases occupied : s.unit.record with
  | none => exact set
  | some r =>
    unfold FaultLogSound at h ⊢
    simp only [State.setUnit_unit, occupied] at h ⊢
    exact h

theorem State.changeOpState_log (s : State) (new : OpState) (h : FaultLogSound s.unit) : FaultLogSound (s.changeOpState new).unit := by
  unfold State.changeOpState
  simp only
  split <;> exact h

theorem State.setStatus_noteRaise_isSet (s : State) (c : FaultClass) (x : Subject) (t : Option Byte) :
    ((s.setStatus c).noteRaise c x t).unit.isSet c = true :=
  (State.noteRaise_reports _ c x t).statuses c (s.setStatus_isSet c)

theorem State.setStatus_noteRaise_log (s : State) (c : FaultClass) (x : Subject) (t : Option Byte) (h : FaultLogSound s.unit) :
    FaultLogSound ((s.setStatus c).noteRaise c x t).unit :=
  State.noteRaise_log _ c x t (s.setStatus_isSet c) (s.setStatus_log c h)

theorem State.raiseOverflow_log (s : State) (kind : NoticeKind) (t : Option Byte) (h : FaultLogSound s.unit) :
    FaultLogSound (s.raiseOverflow kind t).unit := by
  have noted := s.setStatus_noteRaise_log .noticeOverflow (.noticeKind kind) t h
  have set := s.setStatus_noteRaise_isSet .noticeOverflow (.noticeKind kind) t
  unfold State.raiseOverflow
  simp only
  split
  · exact s.setStatus_log _ h
  split
  · next already => exact s.noteRaise_log _ _ t already h
  split
  · split
    · exact State.noteRaise_log _ _ _ t ((State.changeOpState_reports _ _).statuses _ set) (State.changeOpState_log _ _ noted)
    · exact State.changeOpState_log _ _ noted
  · exact noted

theorem State.postNotice_log (s : State) (n : Notice) (t : Option Byte) (h : FaultLogSound s.unit) : FaultLogSound (s.postNotice n t).unit := by
  unfold State.postNotice
  split
  · exact h
  · exact s.raiseOverflow_log _ t h

theorem State.enterState_log (s : State) (new : OpState) (reason : Reason) (t : Option Byte) (h : FaultLogSound s.unit) :
    FaultLogSound (s.enterState new reason t).unit := by
  unfold State.enterState
  simp only
  split
  · exact State.postNotice_log _ _ t (s.changeOpState_log new h)
  · exact s.changeOpState_log new h

theorem State.raise_log (s : State) (c : FaultClass) (x : Subject) (t : Option Byte) (h : FaultLogSound s.unit) :
    FaultLogSound (s.raise c x t).unit := by
  have noted := s.setStatus_noteRaise_log c x t h
  have told : FaultLogSound
      (if ((s.setStatus c).noteRaise c x t).control.enableFault = true then ((s.setStatus c).noteRaise c x t).postNotice (.fault c x) t
      else (s.setStatus c).noteRaise c x t).unit := by
    split
    · exact State.postNotice_log _ _ t noted
    · exact noted
  unfold State.raise
  simp only
  split
  · exact s.setStatus_log c h
  split
  · next already => exact s.noteRaise_log c x t already h
  generalize (if ((s.setStatus c).noteRaise c x t).control.enableFault = true then
    ((s.setStatus c).noteRaise c x t).postNotice (.fault c x) t else (s.setStatus c).noteRaise c x t) = u at told
  split
  · exact u.enterState_log _ _ t told
  · exact told

/-! ### What the three laws read -/

/-- The slots stay distinct where each record keeps its slot. -/
theorem SlotsDistinct.congr {s t : State} (channels : ∀ i, (t.channel i).slot = (s.channel i).slot)
    (references : ∀ i, (t.reference i).slot = (s.reference i).slot) (h : SlotsDistinct s) : SlotsDistinct t := by
  simpa only [SlotsDistinct, channels, references] using h

/-- What a list of records holds of a part of each, an equal list of the parts holds. -/
theorem List.forall_of_map_eq {α β : Type} {f : α → β} {l m : List α} (e : m.map f = l.map f) {p : β → Prop} (h : ∀ x ∈ l, p (f x)) :
    ∀ x ∈ m, p (f x) := by
  rw [← List.forall_mem_map] at h ⊢
  rwa [e]

/-- The laws read nothing but these. -/
theorem Keeps.of_eq {s t : State} (unit : t.unit = s.unit) (channels : t.channels = s.channels) (references : t.references = s.references)
    (sweeps : t.modulators.map Modulator.sweep = s.modulators.map Modulator.sweep) (comparator : t.comparator = s.comparator)
    (decision : t.decision = s.decision) (steps : t.paths.map PathRecord.step = s.paths.map PathRecord.step) : Keeps s t where
  log h := by rwa [unit]
  slots := SlotsDistinct.congr (fun i => by simp [State.channel, channels]) (fun i => by simp [State.reference, references])
  ranges h := by
    obtain ⟨c, r, m, ch, b0, b1, a, p⟩ := h
    unfold FieldsInRange
    rw [channels, references, comparator, decision]
    exact ⟨c, r, List.forall_of_map_eq (p := (· ≤ 1874)) sweeps m, ch, b0, b1, a,
      List.forall_of_map_eq (p := fun n => 1 ≤ n ∧ n ≤ 10) steps p⟩

theorem Reports.keeps {s t : State} (h : Reports s t) (log : FaultLogSound s.unit → FaultLogSound t.unit) : Keeps s t where
  log := log
  slots := SlotsDistinct.congr (fun i => by rw [h.channel]) (fun i => by rw [h.reference])
  ranges k := by
    obtain ⟨c, r, m, ch, b0, b1, a, p⟩ := k
    unfold FieldsInRange
    rw [h.channels, h.references, h.comparator, h.decision, h.paths]
    exact ⟨c, r, List.forall_of_map_eq (p := (· ≤ 1874)) h.sweeps m, ch, b0, b1, a, p⟩

theorem State.raise_keeps (s : State) (c : FaultClass) (x : Subject) (t : Option Byte) : Keeps s (s.raise c x t) :=
  (s.raise_reports c x t).keeps (s.raise_log c x t)

theorem State.postNotice_keeps (s : State) (n : Notice) (t : Option Byte) : Keeps s (s.postNotice n t) :=
  (s.postNotice_reports n t).keeps (s.postNotice_log n t)

theorem State.enterState_keeps (s : State) (new : OpState) (reason : Reason) (t : Option Byte) : Keeps s (s.enterState new reason t) :=
  (s.enterState_reports new reason t).keeps (s.enterState_log new reason t)

theorem State.raiseAll_keeps (s : State) (faults : List (FaultClass × Subject)) : Keeps s (s.raiseAll faults) := by
  unfold State.raiseAll
  exact Keeps.foldl _ (fun s f => s.raise_keeps f.1 f.2 none) faults s

theorem State.setPorts_keeps (s : State) (x : Ports) : Keeps s (s.setPorts x) := .of_eq rfl rfl rfl rfl rfl rfl rfl
theorem State.setControl_keeps (s : State) (x : Control) : Keeps s (s.setControl x) := .of_eq rfl rfl rfl rfl rfl rfl rfl
theorem State.setSeed_keeps (s : State) (x : SeedEngine) : Keeps s (s.setSeed x) := .of_eq rfl rfl rfl rfl rfl rfl rfl
theorem State.setPool_keeps (s : State) (x : Pool) : Keeps s (s.setPool x) := .of_eq rfl rfl rfl rfl rfl rfl rfl
theorem State.setPending_keeps (s : State) (x : List Instr) : Keeps s (s.setPending x) := .of_eq rfl rfl rfl rfl rfl rfl rfl
theorem State.putHistory_keeps (s : State) (r : Nat) (x : List Slot) : Keeps s (s.putHistory r x) := .of_eq rfl rfl rfl rfl rfl rfl rfl

/-- A path record written with the step exponent it had. -/
theorem State.putPath_keeps (s : State) (p : Nat) (x : PathRecord) (h : x.step = (s.path p).step) : Keeps s (s.putPath p x) :=
  .of_eq rfl rfl rfl rfl rfl rfl (List.map_set_same _ _ _ _ _ h)

/-- Every record of a table written at one number, which the table may not have. -/
theorem List.forall_mem_set {α : Type} {l : List α} {n : Nat} {x : α} {p : α → Prop} (h : ∀ y ∈ l, p y) (k : n < l.length → p x) :
    ∀ y ∈ l.set n x, p y := by
  by_cases hn : n < l.length
  · exact fun y hy => (List.mem_or_eq_of_mem_set hy).elim (h y) fun e => e ▸ k hn
  · rwa [List.set_eq_of_length_le (by omega)]

/-- A path record written with a step exponent in its range. -/
theorem State.putPath_keeps_of_step (s : State) (p : Nat) (x : PathRecord) (h : 1 ≤ x.step ∧ x.step ≤ 10) : Keeps s (s.putPath p x) where
  log := id
  slots := id
  ranges k := by
    obtain ⟨c, r, m, ch, b0, b1, a, paths⟩ := k
    exact ⟨c, r, m, ch, b0, b1, a, List.forall_mem_set paths fun _ => h⟩

/-- A channel record of the table is in its ranges. -/
theorem FieldsInRange.channel {s : State} (h : FieldsInRange s) {c : Nat} (hc : c < s.channels.length) :
    ChannelInRange s.comparator (s.channel c) := by
  obtain ⟨-, -, -, channels, -⟩ := h
  have : s.channel c = s.channels[c] := by simp [State.channel, hc]
  exact this ▸ channels _ (List.getElem_mem hc)

/-- A reference record of the table is in its ranges. -/
theorem FieldsInRange.reference {s : State} (h : FieldsInRange s) {r : Nat} (hr : r < s.references.length) :
    ReferenceInRange (s.reference r) := by
  obtain ⟨-, references, -⟩ := h
  have : s.reference r = s.references[r] := by simp [State.reference, hr]
  exact this ▸ references _ (List.getElem_mem hr)

/-- A channel record written in its ranges, with the slot it had. -/
theorem State.putChannel_keeps (s : State) (c : Nat) (x : Channel) (slot : x.slot = (s.channel c).slot)
    (h : FieldsInRange s → c < s.channels.length → ChannelInRange s.comparator x) : Keeps s (s.putChannel c x) where
  log := id
  slots := SlotsDistinct.congr (s.channel_putChannel_congr Channel.slot c x slot) fun _ => rfl
  ranges k := by
    obtain ⟨cp, r, m, ch, b0, b1, a, p⟩ := k
    exact ⟨cp, r, m, List.forall_mem_set ch (h ⟨cp, r, m, ch, b0, b1, a, p⟩), b0, b1, a, p⟩

/-- Every channel record changed, each with the slot it had and into its ranges. -/
theorem State.mapChannels_keeps (s : State) (f : Channel → Channel) (slot : ∀ ch, (f ch).slot = ch.slot)
    (h : FieldsInRange s → ∀ ch, ChannelInRange s.comparator ch → ChannelInRange s.comparator (f ch)) :
    Keeps s (s.setChannels (s.channels.map f)) where
  log := id
  slots := SlotsDistinct.congr (s.channel_map_congr Channel.slot f slot) fun _ => rfl
  ranges k := by
    obtain ⟨cp, r, m, ch, b0, b1, a, p⟩ := k
    refine ⟨cp, r, m, ?_, b0, b1, a, p⟩
    simp only [State.setChannels_channels, List.forall_mem_map]
    exact fun x hx => h ⟨cp, r, m, ch, b0, b1, a, p⟩ x (ch x hx)

/-- What a reference record put shares with the one it replaces, every record keeps. -/
theorem State.reference_putReference_congr {β : Type} (g : Reference → β) (s : State) (r : Nat) (x : Reference)
    (h : g x = g (s.reference r)) (k : Nat) : g ((s.putReference r x).reference k) = g (s.reference k) := by
  by_cases e : r = k
  · subst e
    by_cases hr : r < s.references.length
    · rw [s.reference_putReference_self r x hr, h]
    · simp [State.reference, List.set_eq_of_length_le (by omega : s.references.length ≤ r)]
  · rw [s.reference_putReference_ne r k x e]

/-- A reference record written in its ranges, with the slot it had. -/
theorem State.putReference_keeps (s : State) (r : Nat) (x : Reference) (slot : x.slot = (s.reference r).slot)
    (h : FieldsInRange s → r < s.references.length → ReferenceInRange x) : Keeps s (s.putReference r x) where
  log := id
  slots := SlotsDistinct.congr (fun _ => rfl) (s.reference_putReference_congr Reference.slot r x slot)
  ranges k := by
    obtain ⟨cp, rs, m, ch, b0, b1, a, p⟩ := k
    exact ⟨cp, List.forall_mem_set rs (h ⟨cp, rs, m, ch, b0, b1, a, p⟩), m, ch, b0, b1, a, p⟩

/-- A modulator's state written with a sweep position in its range. -/
theorem State.putModulator_keeps (s : State) (r : Nat) (x : Modulator)
    (h : FieldsInRange s → r < s.modulators.length → x.sweep ≤ 1874) : Keeps s (s.putModulator r x) where
  log := id
  slots := id
  ranges k := by
    obtain ⟨cp, rs, m, ch, b0, b1, a, p⟩ := k
    exact ⟨cp, rs, List.forall_mem_set m (h ⟨cp, rs, m, ch, b0, b1, a, p⟩), ch, b0, b1, a, p⟩

theorem FieldsInRange.sweep {s : State} (h : FieldsInRange s) {r : Nat} (hr : r < s.modulators.length) : (s.modulator r).sweep ≤ 1874 := by
  obtain ⟨-, -, modulators, -⟩ := h
  have : s.modulator r = s.modulators[r] := by simp [State.modulator, hr]
  exact this ▸ modulators _ (List.getElem_mem hr)

/-! ### Levels, streaks and counts in their ranges -/

theorem stepsUp_le (target limit acc : Nat) : stepsUp target limit acc ≤ limit := by
  induction limit generalizing acc with
  | zero => rfl
  | succ n ih =>
    unfold stepsUp
    split
    · omega
    · exact Nat.succ_le_succ (ih _)

theorem stepsWithin_le (target limit acc : Nat) : stepsWithin target limit acc ≤ limit := by
  induction limit generalizing acc with
  | zero => rfl
  | succ n ih =>
    unfold stepsWithin
    split
    · exact Nat.succ_le_succ (ih _)
    · omega

theorem wholeLevel_range (sum reference : Nat) : -120 ≤ wholeLevel sum reference ∧ wholeLevel sum reference ≤ 0 := by
  have := stepsUp_le (reference ^ 10) 120 (sum ^ 10)
  unfold wholeLevel
  omega

theorem quarterLevel_range (sum : Nat) : -480 ≤ quarterLevel sum ∧ quarterLevel sum ≤ 0 := by
  have := stepsUp_le (fullSine ^ 40) 480 (sum ^ 40)
  unfold quarterLevel
  omega

theorem erleOf_le (capture live : Nat) : erleOf capture live ≤ 60 := by
  unfold erleOf
  split
  · split <;> omega
  · exact stepsWithin_le _ 60 _

/-- The last result's levels in their ranges (R67). -/
def LevelsInRange (m : ComparisonState) : Prop :=
  (∀ e, m.erle = some e → e ≤ 60) ∧ (∀ v, m.liveLevel = some v → -120 ≤ v ∧ v ≤ 0) ∧ ∀ v, m.backgroundLevel = some v → -120 ≤ v ∧ v ≤ 0

/-- The part of a comparison state that a window's progress leaves alone, in its ranges (R67). -/
def ResultInRange (p : ComparatorParams) (m : ComparisonState) : Prop :=
  m.promoteStreak ≤ 8 ∧ m.divergenceStreak ≤ 8 ∧ m.reseedCount ≤ p.reseedLimit ∧ LevelsInRange m

theorem comparisonInRange_iff (p : ComparatorParams) (m : ComparisonState) :
    ComparisonInRange p m ↔ m.count < p.window ∧ m.farCount ≤ m.count ∧ ResultInRange p m := Iff.rfl

theorem inRange_iff (p : ComparatorParams) :
    p.inRange = true ↔ (8 ≤ p.window ∧ p.window ≤ 64) ∧ p.promoteMargin ≤ 24 ∧ (1 ≤ p.promoteCount ∧ p.promoteCount ≤ 8) ∧
      (6 ≤ p.divergenceMargin ∧ p.divergenceMargin ≤ 48) ∧ (1 ≤ p.divergenceCount ∧ p.divergenceCount ≤ 8) ∧
      (1 ≤ p.reseedLimit ∧ p.reseedLimit ≤ 15) ∧ p.threshold ≤ 48 := by
  simp only [ComparatorParams.inRange, Bool.and_eq_true, decide_eq_true_eq, and_assoc]

theorem LevelsInRange.none (m : ComparisonState) (e : m.erle = none) (l : m.liveLevel = none) (b : m.backgroundLevel = none) :
    LevelsInRange m := by simp [LevelsInRange, e, l, b]

/-- A comparison state whose window is fresh is in range where its result is. -/
theorem ResultInRange.fresh {p : ComparatorParams} {m : ComparisonState} (window : p.inRange = true) (h : ResultInRange p m)
    (count : m.count = 0) (far : m.farCount = 0) : ComparisonInRange p m := by
  obtain ⟨⟨w, -⟩, -⟩ := (inRange_iff p).mp window
  exact (comparisonInRange_iff p m).mpr ⟨by omega, by omega, h⟩

theorem ComparisonInRange.cleared {p : ComparatorParams} {m : ComparisonState} (window : p.inRange = true) (h : ComparisonInRange p m) :
    ComparisonInRange p m.cleared := by
  obtain ⟨-, -, -, -, reseeds, -⟩ := h
  exact ResultInRange.fresh window ⟨Nat.zero_le _, Nat.zero_le _, reseeds, .none _ rfl rfl rfl⟩ rfl rfl

theorem ComparisonInRange.initial {p : ComparatorParams} (window : p.inRange = true) : ComparisonInRange p ComparisonState.initial :=
  ResultInRange.fresh window ⟨Nat.zero_le _, Nat.zero_le _, Nat.zero_le _, .none _ rfl rfl rfl⟩ rfl rfl

theorem ComparisonInRange.underParams {old new : ComparatorParams} {m : ComparisonState} (window : new.inRange = true)
    (h : ComparisonInRange old m) : ComparisonInRange new (m.underParams old new) := by
  obtain ⟨⟨w, -⟩, -⟩ := (inRange_iff new).mp window
  obtain ⟨count, far, promote, diverge, reseeds, levels⟩ := h
  have restarted : ∀ m1, m1 = (if old.window ≠ new.window then m.windowRestarted else m) →
      m1.count < new.window ∧ m1.farCount ≤ m1.count ∧ m1.promoteStreak ≤ 8 ∧ m1.divergenceStreak ≤ 8 ∧ m1.reseedCount = m.reseedCount ∧
        LevelsInRange m1 := by
    rintro m1 rfl
    split
    · exact ⟨show 0 < _ by omega, Nat.le_refl 0, promote, diverge, rfl, levels⟩
    · next same => exact ⟨not_not.mp same ▸ count, far, promote, diverge, rfl, levels⟩
  unfold ComparisonState.underParams
  simp only
  obtain ⟨count1, far1, promote1, diverge1, reseeds1, levels1⟩ := restarted _ rfl
  split
  · exact ⟨count1, far1, promote1, diverge1, Nat.min_le_right _ _, levels1⟩
  · next limit => exact ⟨count1, far1, promote1, diverge1, by rw [reseeds1]; exact not_not.mp limit ▸ reseeds, levels1⟩

theorem DetectorInRange.update {d : DetectorState} (h : DetectorInRange d) (raw : Bool) : DetectorInRange (d.update raw) := by
  obtain ⟨a1, a2, a3, a4, a5, a6, a7, a8⟩ := h
  cases active : d.nearActive <;> cases raw <;> simp only [DetectorState.update, active]
  · exact ⟨a1, a2, a3, a4, a5, a6, Nat.zero_le _, a8⟩
  · split
    · exact ⟨a1, a2, a3, a4, a5, a6, Nat.zero_le _, a6⟩
    · exact ⟨a1, a2, a3, a4, a5, a6, by show d.debounce + 1 ≤ 15; omega, a8⟩
  · exact ⟨a1, a2, a3, a4, a5, a6, a7, by show d.hangover - 1 ≤ 255; omega⟩
  · exact ⟨a1, a2, a3, a4, a5, a6, a7, a6⟩

theorem DetectorInRange.countersReset {d : DetectorState} (h : DetectorInRange d) : DetectorInRange d.countersReset := by
  obtain ⟨a1, a2, a3, a4, a5, a6, -, -⟩ := h
  exact ⟨a1, a2, a3, a4, a5, a6, Nat.zero_le _, Nat.zero_le _⟩

theorem SuppressorInRange.update {p : SuppressorState} (h : SuppressorInRange p) (near : Bool) (energy : Nat) {target : Nat}
    (limit : target ≤ 45) (fill : Bool) : SuppressorInRange (p.update near energy target fill) := by
  obtain ⟨a1, a2, r1, r2, o1, o2, g1, g2, f1, f2, n⟩ := h
  have level := quarterLevel_range energy
  have gain : -90 ≤ p.movedGain target ∧ p.movedGain target ≤ 0 := by
    unfold SuppressorState.movedGain
    simp only
    split
    · omega
    · split <;> omega
  have floor : -480 ≤ floorAfter p.floor (quarterLevel energy) ∧ floorAfter p.floor (quarterLevel energy) ≤ 0 := by
    unfold floorAfter
    split <;> omega
  unfold SuppressorState.update SuppressorInRange
  simp only
  refine ⟨a1, a2, r1, r2, o1, o2, gain.1, gain.2, ?_, ?_, ?_⟩
  · split <;> omega
  · split <;> omega
  · split <;> omega

theorem matchEntries_target (flags : TalkFlags) (entries : List DecisionEntry) (i : Nat) (h : ∀ e ∈ entries, e.target ≤ 45) :
    (matchEntries flags i entries).1.target ≤ 45 := by
  induction entries generalizing i with
  | nil => exact Nat.zero_le _
  | cons e rest ih =>
    have later := ih (i + 1) fun x hx => h x (List.mem_cons_of_mem e hx)
    unfold matchEntries
    split
    · exact later
    split
    · exact h e List.mem_cons_self
    · exact later

theorem FieldsInRange.target {s : State} (h : FieldsInRange s) (bank : Nat) : ∀ e ∈ s.decision.bank bank, e.target ≤ 45 := by
  obtain ⟨-, -, -, -, bank0, bank1, -⟩ := h
  unfold Decision.bank
  split
  · exact fun e he => (bank0 e he).2.1
  · exact fun e he => (bank1 e he).2.1

/-! ### The evaluation window -/

/-- What the work on a channel's comparison state leaves: the record with this comparison state, the fault log's law, and what no channel
block changes. -/
structure Compared (s : State) (c : Nat) (m : ComparisonState) (t : State) : Prop where
  work : BlockWork s t
  log : FaultLogSound s.unit → FaultLogSound t.unit
  channels : t.channels = s.channels.set c { s.channel c with comparison := m }

theorem Compared.channel {s t : State} {c : Nat} {m : ComparisonState} (h : Compared s c m t) (hc : c < s.channels.length) :
    t.channel c = { s.channel c with comparison := m } := by
  simp [State.channel, h.channels, hc]

theorem Compared.trans {s t u : State} {c : Nat} {m n : ComparisonState} (hc : c < s.channels.length) (h : Compared s c m t)
    (k : Compared t c n u) : Compared s c n u where
  work := h.work.trans k.work
  log := k.log ∘ h.log
  channels := by rw [k.channels, h.channel hc, h.channels, List.set_set]

theorem State.putComparison_compared (s : State) (c : Nat) (m : ComparisonState) : Compared s c m (s.putComparison c m) :=
  ⟨s.putComparison_blockWork c m, id, rfl⟩

theorem State.beginCopies_channel (s : State) (flip : Bool) (c k : Nat) : (s.beginCopies flip c).channel k = s.channel k := by
  simp [State.channel, (s.beginCopies_only flip c).channels]

/-- A promotion or a reseed begins with the copies, which leave the channel records and the fault unit alone (R74, R76). -/
theorem State.beginCopies_putComparison_compared (s : State) (flip : Bool) (c : Nat) (m : ComparisonState) :
    Compared s c m ((s.beginCopies flip c).putComparison c m) where
  work := (s.beginCopies_blockWork flip c).trans (State.putComparison_blockWork _ c m)
  log h := by
    show FaultLogSound (s.beginCopies flip c).unit
    rwa [(s.beginCopies_only flip c).unit]
  channels := by
    show (s.beginCopies flip c).channels.set c _ = _
    rw [(s.beginCopies_only flip c).channels, State.beginCopies_channel]

theorem Compared.raise {s t : State} {c : Nat} {m : ComparisonState} (h : Compared s c m t) (f : FaultClass) (x : Subject) (tag : Option Byte) :
    Compared s c m (t.raise f x tag) where
  work := h.work.trans (t.raise_reports f x tag).blockWork
  log := t.raise_log f x tag ∘ h.log
  channels := by rw [State.raise_channels, h.channels]

/-- A comparison state after a promotion or a reseed that fell due: the streaks at 0, the reseed count within its limit, the levels and the
window's counts kept. -/
def Restreaked (p : ComparatorParams) (old new : ComparisonState) : Prop :=
  new.promoteStreak = 0 ∧ new.divergenceStreak = 0 ∧ (old.reseedCount ≤ p.reseedLimit → new.reseedCount ≤ p.reseedLimit) ∧
    new.erle = old.erle ∧ new.liveLevel = old.liveLevel ∧ new.backgroundLevel = old.backgroundLevel ∧ new.count = old.count ∧
    new.farCount = old.farCount

theorem Restreaked.result {p : ComparatorParams} {old new : ComparisonState} (h : Restreaked p old new) (levels : LevelsInRange old)
    (reseeds : old.reseedCount ≤ p.reseedLimit) : ResultInRange p new := by
  obtain ⟨promote, diverge, count, erle, live, background, -⟩ := h
  refine ⟨by omega, by omega, count reseeds, ?_⟩
  unfold LevelsInRange
  rw [erle, live, background]
  exact levels

theorem Restreaked.comparison {p : ComparatorParams} {old new : ComparisonState} (h : Restreaked p old new) (k : ComparisonInRange p old) :
    ComparisonInRange p new := by
  obtain ⟨count, far, -, -, reseeds, levels⟩ := (comparisonInRange_iff p old).mp k
  have result := h.result levels reseeds
  obtain ⟨-, -, -, -, -, -, sameCount, sameFar⟩ := h
  exact (comparisonInRange_iff p new).mpr ⟨sameCount ▸ count, sameCount ▸ sameFar ▸ far, result⟩

theorem State.applyPromotion_compared (s : State) (c : Nat) :
    ∃ m, Compared s c m (s.applyPromotion c) ∧ Restreaked s.comparator (s.channel c).comparison m := by
  refine ⟨_, s.beginCopies_putComparison_compared true c _, rfl, rfl, fun _ => Nat.zero_le _, ?_⟩
  rw [State.beginCopies_channel]
  exact ⟨rfl, rfl, rfl, rfl, rfl⟩

theorem State.applyReseed_compared (s : State) (c : Nat) :
    ∃ m, Compared s c m (s.applyReseed c) ∧ Restreaked s.comparator (s.channel c).comparison m := by
  let m : ComparisonState :=
    { (s.channel c).comparison with
      promoteStreak := 0, divergenceStreak := 0, pendingPromote := false
      reseedCount :=
        if (s.channel c).comparison.reseedCount < s.comparator.reseedLimit then (s.channel c).comparison.reseedCount + 1
        else (s.channel c).comparison.reseedCount }
  have limited : Restreaked s.comparator (s.channel c).comparison m := by
    refine ⟨rfl, rfl, fun h => ?_, rfl, rfl, rfl, rfl, rfl⟩
    simp only [m]
    split <;> omega
  have copied : Compared s c m ((s.beginCopies false c).putComparison c m) := s.beginCopies_putComparison_compared false c m
  refine ⟨m, ?_, limited⟩
  unfold State.applyReseed
  simp only [State.beginCopies_channel]
  split
  · exact copied.raise _ _ _
  · exact copied

theorem State.promotionDue_compared (s : State) (c : Nat) :
    ∃ m, Compared s c m (s.promotionDue c) ∧ Restreaked s.comparator (s.channel c).comparison m := by
  unfold State.promotionDue
  split
  · exact ⟨_, s.putComparison_compared c _, rfl, rfl, id, rfl, rfl, rfl, rfl, rfl⟩
  · exact s.applyPromotion_compared c

theorem ComparisonState.withStreaks_kept (m : ComparisonState) (p : ComparatorParams) :
    (m.withStreaks p).reseedCount = m.reseedCount ∧ (m.withStreaks p).erle = m.erle ∧ (m.withStreaks p).liveLevel = m.liveLevel ∧
      (m.withStreaks p).backgroundLevel = m.backgroundLevel := by
  unfold ComparisonState.withStreaks
  split
  · exact ⟨rfl, rfl, rfl, rfl⟩
  split
  · exact ⟨rfl, rfl, rfl, rfl⟩
  split <;> exact ⟨rfl, rfl, rfl, rfl⟩

theorem ComparisonState.withResult_levels (m : ComparisonState) (p : ComparatorParams) : LevelsInRange (m.withResult p) := by
  refine ⟨fun e h => ?_, fun v h => ?_, fun v h => ?_⟩
  · exact Option.some.inj h ▸ erleOf_le _ _
  · exact Option.some.inj h ▸ wholeLevel_range _ _
  · exact Option.some.inj h ▸ wholeLevel_range _ _

/-- A result taken and what falls due leave the result's part of the comparison state in range. -/
theorem State.judgeWindow_compared (s : State) (c : Nat) (hc : c < s.channels.length) :
    ∃ m, Compared s c m (s.judgeWindow c) ∧
      (s.comparator.inRange = true → (s.channel c).comparison.reseedCount ≤ s.comparator.reseedLimit → ResultInRange s.comparator m) := by
  obtain ⟨reseeds, erle, live, background⟩ :=
    ((s.channel c).comparison.withResult s.comparator).withStreaks_kept s.comparator
  have levels := (s.channel c).comparison.withResult_levels s.comparator
  unfold State.judgeWindow
  simp only
  generalize ((s.channel c).comparison.withResult s.comparator).withStreaks s.comparator = m at *
  replace levels : LevelsInRange m := by
    unfold LevelsInRange at levels ⊢
    rwa [erle, live, background]
  replace reseeds : m.reseedCount = (s.channel c).comparison.reseedCount := reseeds
  have put := s.putComparison_compared c m
  have read : ((s.putComparison c m).channel c).comparison = m := by rw [put.channel hc]
  split
  · obtain ⟨n, compared, streaks⟩ := (s.putComparison c m).promotionDue_compared c
    rw [read] at streaks
    exact ⟨n, put.trans hc compared, fun _ limit => streaks.result levels (reseeds ▸ limit)⟩
  split
  · obtain ⟨n, compared, streaks⟩ := (s.putComparison c m).applyReseed_compared c
    rw [read] at streaks
    exact ⟨n, put.trans hc compared, fun _ limit => streaks.result levels (reseeds ▸ limit)⟩
  · next few fewer =>
    refine ⟨m, put, fun params limit => ?_⟩
    obtain ⟨-, -, ⟨-, promote⟩, -, ⟨-, diverge⟩, -⟩ := (inRange_iff _).mp params
    exact ⟨by omega, by omega, reseeds ▸ limit, levels⟩

theorem State.endWindow_compared (s : State) (c : Nat) (hc : c < s.channels.length) :
    ∃ m, Compared s c m (s.endWindow c) ∧
      (s.comparator.inRange = true → ResultInRange s.comparator (s.channel c).comparison → ComparisonInRange s.comparator m) := by
  unfold State.endWindow
  simp only
  split
  · exact ⟨_, s.putComparison_compared c _, fun params result => ResultInRange.fresh params result rfl rfl⟩
  · obtain ⟨m, compared, result⟩ := s.judgeWindow_compared c hc
    refine ⟨_, compared.trans hc (State.putComparison_compared _ c _), fun params old => ?_⟩
    rw [compared.channel hc]
    exact ResultInRange.fresh (m := m.windowRestarted) params (result params old.2.2.1) rfl rfl

/-- Stage 7 leaves the channel's comparison state in range (R67, R69). -/
theorem State.accumulateWindow_compared (s : State) (c : Nat) (x : WindowShare) (hc : c < s.channels.length) :
    ∃ m, Compared s c m (s.accumulateWindow c x) ∧
      (s.comparator.inRange = true → ComparisonInRange s.comparator (s.channel c).comparison → ComparisonInRange s.comparator m) := by
  have put := s.putComparison_compared c ((s.channel c).comparison.accumulate x)
  unfold State.accumulateWindow
  simp only
  split
  · obtain ⟨m, compared, ranges⟩ := (s.putComparison c ((s.channel c).comparison.accumulate x)).endWindow_compared c
      (by simpa [State.putComparison] using hc)
    rw [put.channel hc] at ranges
    exact ⟨m, put.trans hc compared, fun params old => ranges params old.2.2⟩
  · next goesOn =>
    refine ⟨_, put, fun params old => ?_⟩
    obtain ⟨-, far, result⟩ := (comparisonInRange_iff _ _).mp old
    refine (comparisonInRange_iff _ _).mpr ⟨Nat.lt_of_not_le goesOn, ?_, result⟩
    show (if x.far then _ else _) ≤ (s.channel c).comparison.count + 1
    split <;> omega

theorem BlockWork.steps {s t : State} (h : BlockWork s t) : t.paths.map PathRecord.step = s.paths.map PathRecord.step := by
  simpa only [List.map_map, Function.comp_def] using
    congrArg (List.map fun x : Option Nat × Option Nat × List Nat × Nat × Bool => x.2.2.2.1) h.records

/-- Work on a channel's comparison state keeps the laws where it leaves that state in range. -/
theorem Compared.keeps {s t : State} {c : Nat} {m : ComparisonState} (h : Compared s c m t)
    (ranges : FieldsInRange s → c < s.channels.length → ComparisonInRange s.comparator m) : Keeps s t where
  log := h.log
  slots := SlotsDistinct.congr (fun i => congrArg (·.1) (h.work.channel i)) fun i => by simp [State.reference, h.work.references]
  ranges k := by
    have whole := k
    obtain ⟨cp, r, ms, ch, b0, b1, a, p⟩ := k
    unfold FieldsInRange
    rw [h.channels, h.work.references, h.work.comparator, h.work.decision]
    refine ⟨cp, r, List.forall_of_map_eq (p := (· ≤ 1874)) h.work.sweeps ms, List.forall_mem_set ch fun hc => ?_, b0, b1, a,
      List.forall_of_map_eq (p := fun n => 1 ≤ n ∧ n ≤ 10) h.work.steps p⟩
    obtain ⟨slot, clip, -, detector, suppressor⟩ := FieldsInRange.channel whole hc
    exact ⟨slot, clip, ranges whole hc, detector, suppressor⟩

theorem State.accumulateWindow_keeps (s : State) (c : Nat) (x : WindowShare) (hc : c < s.channels.length) :
    Keeps s (s.accumulateWindow c x) := by
  obtain ⟨m, compared, ranges⟩ := s.accumulateWindow_compared c x hc
  exact compared.keeps fun h _ => ranges h.1 (FieldsInRange.channel h hc).2.2.1

/-- A promotion wherever it is applied: a channel number that the table has not changes nothing of it. -/
theorem State.applyPromotion_keeps (s : State) (c : Nat) : Keeps s (s.applyPromotion c) := by
  obtain ⟨m, compared, streaks⟩ := s.applyPromotion_compared c
  exact compared.keeps fun h hc => streaks.comparison (FieldsInRange.channel h hc).2.2.1

end Sys2Proof.Machine
end

section
/-! Channel blocks, the seed engine, readbacks and the outbound period keep the fault log's law, the distinct slots and the ranges. -/

namespace Sys2Proof.Machine

open Sys2Proof.Safety

/-! ### Channel blocks -/

theorem State.clipTest_keeps (s : State) (c : Nat) (clipped : Bool) : Keeps s (s.clipTest c clipped) := by
  have counted : ∀ n ≤ 32, Keeps s (s.putChannel c { s.channel c with clipRun := n }) := fun n limit =>
    s.putChannel_keeps c _ rfl fun h hc => by
      obtain ⟨slot, -, rest⟩ := FieldsInRange.channel h hc
      exact ⟨slot, limit, rest⟩
  unfold State.clipTest
  simp only
  split
  · split
    · next fewer =>
      have raised : (s.channel c).clipRun + 1 ≤ 32 := fewer
      split
      · exact (counted _ raised).trans (State.raise_keeps _ _ _ _)
      · exact counted _ raised
    · exact .refl s
  · exact counted 0 (Nat.zero_le _)

theorem State.writePartition_keeps (s : State) (n : Nat) (x : Partition) : Keeps s (s.writePartition n x) := s.setPool_keeps _

theorem State.moveChain_keeps (s : State) (set : SetId) (divisor : Nat) (residual : List Int) (history : List Slot) (age : Nat)
    (ns : List Nat) (xs : List CoeffSet) : Keeps s (s.moveChain set divisor residual history age ns xs) := by
  induction ns generalizing s age xs with
  | nil => exact .refl s
  | cons n ns ih =>
    cases xs with
    | nil => exact .refl s
    | cons x xs => exact (s.writePartition_keeps n _).trans (ih _ _ _)

theorem State.adaptPath_keeps (s : State) (frozen : Bool) (action : Action) (residual : List Int) (r : PathRead) :
    Keeps s (s.adaptPath frozen action residual r) := by
  unfold State.adaptPath
  split
  · exact State.moveChain_keeps _ _ _ _ _ _ _ _
  · exact .refl s

/-- Stages 2 to 7: raises and adaptation leave the channel's record, into which detector, last block and suppressor go in range, and the
window follows (R48). -/
theorem State.cancelBlock_keeps (s : State) (c : Nat) (clipped : Bool) (capture : Slot) (hc : c < s.channels.length) :
    Keeps s (s.cancelBlock c clipped capture).2 := by
  have stages : ∀ (action : Action) (residual : List Int) (reads : List PathRead) (faults entries : List (FaultClass × Subject))
      (raw near : Bool) (energy : Nat) (last : LastBlock) (share : WindowShare), (FieldsInRange s → action.target ≤ 45) →
      Keeps s (((reads.foldl (fun t r => t.adaptPath (s.channel c).frozen action residual r) ((s.raiseAll faults).raiseAll entries)).putChannel c
        { s.channel c with
          detector := (s.channel c).detector.update raw
          last := last
          suppressor := (s.channel c).suppressor.update near energy action.target action.fill }).accumulateWindow c share) := by
    intro action residual reads faults entries raw near energy last share target
    let adapted := reads.foldl (fun t r => t.adaptPath (s.channel c).frozen action residual r) ((s.raiseAll faults).raiseAll entries)
    have kept : Keeps s adapted := ((s.raiseAll_keeps faults).trans (State.raiseAll_keeps _ entries)).trans
      (Keeps.foldl _ (fun t r => t.adaptPath_keeps _ action residual r) reads _)
    have same : BlockWork s adapted := (((s.raiseAll_reports faults).trans (State.raiseAll_reports _ entries)).blockWork).trans
      (BlockWork.foldl _ (fun t r => t.adaptPath_blockWork _ action residual r) reads _)
    have count : c < adapted.channels.length := by
      have := congrArg List.length same.bindings
      rw [List.length_map, List.length_map] at this
      omega
    let written : Channel :=
      { s.channel c with
        detector := (s.channel c).detector.update raw
        last := last
        suppressor := (s.channel c).suppressor.update near energy action.target action.fill }
    have put : FieldsInRange s → Keeps s (adapted.putChannel c written) := fun h => kept.trans <|
      adapted.putChannel_keeps c written (congrArg (·.1) (same.channel c).symm) fun _ _ => by
        rw [same.comparator]
        obtain ⟨slot, clip, comparison, detector, suppressor⟩ := FieldsInRange.channel h hc
        exact ⟨slot, clip, comparison, DetectorInRange.update detector raw, SuppressorInRange.update suppressor near energy (target h) _⟩
    have window : Keeps (adapted.putChannel c written) ((adapted.putChannel c written).accumulateWindow c share) :=
      State.accumulateWindow_keeps _ c share (by simpa using count)
    have slots : SlotsDistinct adapted → SlotsDistinct (adapted.putChannel c written) :=
      SlotsDistinct.congr (adapted.channel_putChannel_congr Channel.slot c written (congrArg (·.1) (same.channel c).symm)) fun _ => rfl
    exact ⟨window.log ∘ kept.log, window.slots ∘ slots ∘ kept.slots, fun h => window.ranges ((put h).ranges h)⟩
  exact stages _ _ _ _ _ _ _ _ _ _ fun h => matchEntries_target _ _ _ (FieldsInRange.target h _)

theorem State.channelBlock_keeps (op : OpState) (action : SafeAction) (arrived slots : List Slot) (s : State) (c : Nat) :
    Keeps s (State.channelBlock op action arrived (slots, s) c).2 := by
  unfold State.channelBlock
  simp only
  split
  · exact s.raise_keeps _ _ _
  split
  · exact .refl s
  · next k named =>
    have tested := s.clipTest_keeps c (isClipped (arrived.getD k silence))
    split
    · refine tested.trans (State.cancelBlock_keeps _ c _ _ ?_)
      rw [(s.clipTest_samePaths c _).channelCount]
      exact s.channel_lt c k named
    · exact tested

theorem execWindowEnd_keeps (s t : State) (c capture live background : Nat) (e : execWindowEnd c capture live background s = .next t) :
    Keeps s t := by
  unfold execWindowEnd at e
  obtain rfl := Host.Outcome.next.inj e
  split
  · next performed =>
    simp only [State.performsStages, Bool.and_eq_true, Option.isSome_iff_exists] at performed
    obtain ⟨⟨⟨_, k, named⟩, _⟩, _⟩ := performed
    exact s.accumulateWindow_keeps c _ (s.channel_lt c k named)
  · exact .refl s

/-! ### The seed engine and readbacks -/

theorem State.rewritePartition_keeps (s : State) (q : SeedRequest) : Keeps s (s.rewritePartition q) := by
  unfold State.rewritePartition
  simp only
  split
  · exact .refl s
  split
  · exact s.writePartition_keeps _ _
  · split
    · exact (s.writePartition_keeps _ _).trans (State.raise_keeps _ _ _ _)
    · exact s.writePartition_keeps _ _

theorem State.seedOne_keeps (s : State) : Keeps s s.seedOne := by
  unfold State.seedOne
  split
  · exact .refl s
  · next q rest _ =>
    have written := s.rewritePartition_keeps q
    simp only
    split
    · have completed := (written.trans (State.setSeed_keeps _ { (s.rewritePartition q).seed with queue := rest })).trans
        (State.putPath_keeps _ q.path { ((s.rewritePartition q).setQueue rest).path q.path with state := .ready } rfl)
      unfold State.completeRequest
      simp only
      split
      · exact completed.trans (State.postNotice_keeps _ _ _)
      · exact completed
    · exact written.trans (State.setSeed_keeps _ _)

theorem State.seedRun_keeps (n : Nat) (s : State) : Keeps s (State.seedRun n s) := by
  induction n generalizing s with
  | zero => exact .refl s
  | succ n ih => exact s.seedOne_keeps.trans (ih _)

theorem State.takeSeedStep_keeps (s : State) : Keeps s s.takeSeedStep := by
  unfold State.takeSeedStep State.stepSeed
  split
  · split
    · exact (s.setSeed_keeps _).trans (State.seedRun_keeps _ _)
    · exact s.setSeed_keeps _
  · exact .refl s

theorem State.finishReadback_keeps (s : State) (rb : Readback) : Keeps s (s.finishReadback rb) := by
  have unheld : Keeps s (s.unheld rb) := by
    unfold State.unheld
    split
    · exact s.putPath_keeps _ _ rfl
    · exact .refl s
  obtain ⟨ended, -⟩ | ⟨c, -, -, ended⟩ := s.finishReadback_cases rb
  · rw [ended]
    exact unheld
  · rw [ended]
    exact unheld.trans (State.applyPromotion_keeps _ c)

theorem State.abortReadback_keeps (s : State) : Keeps s s.abortReadback := by
  unfold State.abortReadback
  split
  · exact (s.setControl_keeps _).trans (State.finishReadback_keeps _ _)
  · exact .refl s
  · exact .refl s

theorem State.grantData_keeps (s : State) (rb : Readback) : Keeps s (s.grantData rb).2 := by
  have read : Keeps s (if (s.readbackSource rb).upset then s.raise .coeffParity (.path rb.path rb.next) none else s) := by
    split
    · exact s.raise_keeps _ _ _
    · exact .refl s
  unfold State.grantData
  dsimp only
  split
  · exact (read.trans (State.setControl_keeps _ _)).trans (State.finishReadback_keeps _ rb)
  · exact read.trans (State.setControl_keeps _ _)

theorem State.arbitrate_keeps (s : State) : Keeps s s.arbitrate.2 := by
  have decided := s.setControl_keeps { s.control with winner := s.control.decide.2 }
  unfold State.arbitrate
  dsimp only
  split
  · exact decided
  · unfold State.grantForward
    split
    · exact decided
    · exact decided.trans (State.setControl_keeps _ _)
  · unfold State.grantOwn
    split
    · exact decided.trans (State.setControl_keeps _ _)
    · exact decided.trans (State.setControl_keeps _ _)
    · exact decided.trans (State.grantData_keeps _ _)
    · exact decided.trans (State.setControl_keeps _ _)
    · exact decided

theorem State.transmit_keeps (s : State) : Keeps s s.transmit := by
  unfold State.transmit
  split
  · exact .refl s
  · exact s.arbitrate_keeps.trans (State.setPorts_keeps _ _)

/-! ### The outbound period -/

theorem State.markPeriod_keeps (s : State) : Keeps s s.markPeriod := by
  unfold State.markPeriod
  simp only
  split <;> exact (s.setSeed_keeps _).trans (State.setPorts_keeps _ _)

theorem State.openPeriod_keeps (s : State) (stepFirst : Bool) : Keeps s (s.openPeriod stepFirst) := by
  unfold State.openPeriod
  split
  · exact s.markPeriod_keeps.trans (State.takeSeedStep_keeps _)
  · exact s.markPeriod_keeps

theorem State.lockSees_keeps (s : State) (x : LockSight) : Keeps s (s.lockSees x) := by
  have rises : Keeps s s.lossRises := by
    unfold State.lossRises State.lockLost
    simp only
    split
    · split
      · exact (s.setPorts_keeps _).trans (State.raise_keeps _ _ _ _)
      · exact s.setPorts_keeps _
    · exact s.setPorts_keeps _
  have acquires : Keeps s s.acquisitionRises := by
    unfold State.acquisitionRises State.lockReached State.leaveOffline
    simp only
    split
    · split
      · exact (s.setPorts_keeps _).trans (State.enterState_keeps _ _ _ _)
      · exact s.setPorts_keeps _
    · exact s.setPorts_keeps _
  cases lock : s.ports.lock <;> cases x <;> simp only [State.lockSees, lock]
  case unlocked.inSequence | unlocked.gap | acquiring.gap | acquiring.lost | locked.inSequence => exact s.setPorts_keeps _
  case unlocked.lost => exact .refl s
  case acquiring.inSequence => exact acquires
  case locked.gap | locked.lost => exact rises

theorem State.judgeHeader_keeps (s : State) (seq : Byte) : Keeps s (s.judgeHeader seq) :=
  (s.lockSees_keeps _).trans (State.setPorts_keeps _ _)

theorem State.coreSilenceRises_keeps (s : State) : Keeps s s.coreSilenceRises := by
  unfold State.coreSilenceRises
  simp only
  split
  · split
    · exact (s.setPorts_keeps _).trans (State.raise_keeps _ _ _ _)
    · exact s.setPorts_keeps _
  · exact .refl s

theorem State.lostPeriod_keeps (s : State) : Keeps s s.lostPeriod :=
  (s.markPeriod_keeps.trans (State.lockSees_keeps _ _)).trans (State.coreSilenceRises_keeps _)

/-- The activity test writes the state of activity alone (R47). -/
theorem Reference.tested_eq (r : Reference) (reaches : Bool) :
    ∃ active count, r.tested reaches = { r with active := active, hangoverCount := count } ∧
      (count = r.hangover ∨ count ≤ r.hangoverCount) := by
  unfold Reference.tested
  split
  · exact ⟨true, r.hangover, rfl, .inl rfl⟩
  split
  · exact ⟨r.active, r.hangoverCount - 1, rfl, .inr (Nat.sub_le _ _)⟩
  · exact ⟨false, r.hangoverCount, rfl, .inr (Nat.le_refl _)⟩

theorem State.putReference_tested_keeps (s : State) (r : Nat) (reaches : Bool) :
    Keeps s (s.putReference r ((s.reference r).tested reaches)) := by
  obtain ⟨active, count, tested, bound⟩ := (s.reference r).tested_eq reaches
  rw [tested]
  refine s.putReference_keeps r _ rfl fun h hr => ?_
  obtain ⟨slot, bulk, depth, low, high, hangover, counted⟩ := FieldsInRange.reference h hr
  exact ⟨slot, bulk, depth, low, high, hangover, by show count ≤ 255; omega⟩

theorem State.appendTo_keeps (s : State) (r : Nat) (b : Slot) : Keeps s (s.appendTo r b) :=
  (s.putHistory_keeps r _).trans (State.putReference_tested_keeps (s.putHistory r _) r _)

theorem State.appendUntrusted_keeps (s : State) (r : Nat) : Keeps s (s.appendUntrusted r) :=
  ((s.raise_keeps _ _ _).trans
    (State.putModulator_keeps _ r (Modulator.cleared _) fun h hr => FieldsInRange.sweep h hr)).trans (State.appendTo_keeps _ r silence)

theorem State.tapReference_keeps (op : OpState) (slots : List Slot) (s : State) (r : Nat) :
    Keeps s (State.tapReference op (slots, s) r).2 := by
  unfold State.tapReference
  simp only
  split
  · exact s.appendUntrusted_keeps r
  split
  · exact s.appendTo_keeps r _
  split
  · exact (s.putModulator_keeps r _ fun _ _ => Nat.le_of_lt_succ (Nat.mod_lt _ (by decide))).trans (State.appendTo_keeps _ r _)
  · exact s.appendTo_keeps r _

theorem State.tapAll_keeps (s : State) (slots : List Slot) : Keeps s (s.tapAll slots).2 := by
  have taps : ∀ (op : OpState) (l : List Nat) (acc : List Slot × State), Keeps acc.2 (l.foldl (State.tapReference op) acc).2 := by
    intro op l
    induction l with
    | nil => exact fun acc => .refl _
    | cons r l ih => exact fun acc => (State.tapReference_keeps op acc.1 acc.2 r).trans (ih _)
  exact taps _ _ (slots, s)

theorem State.silentAppendAll_keeps (s : State) : Keeps s s.silentAppendAll := by
  refine Keeps.foldl _ (fun t r => ?_) _ s
  unfold State.silentAppend
  simp only
  split
  · exact t.appendUntrusted_keeps r
  split
  · exact (t.putModulator_keeps r _ fun _ _ => Nat.le_of_lt_succ (Nat.mod_lt _ (by decide))).trans (State.appendTo_keeps _ r _)
  · exact t.appendTo_keeps r _

end Sys2Proof.Machine
end

section
/-! Every command keeps the fault log's law, the distinct slots and the ranges. -/

namespace Sys2Proof.Machine

open Sys2Proof.Safety

/-! ### Taking, refusing, checking -/

theorem State.take_keeps (s : State) (code tag : Byte) (f : State → Answer) (h : Keeps s (f s).state) : Keeps s (s.take code tag f) := by
  unfold State.take
  split
  · exact s.raise_keeps _ _ _
  · exact h.trans (State.setControl_keeps _ _)

theorem State.checkChannel_keeps (s : State) (c : Nat) (tag : Byte) : Keeps s (s.checkChannel c tag) := by
  unfold State.checkChannel
  split
  · exact s.raise_keeps _ _ _
  · exact .refl s

theorem State.checkReference_keeps (s : State) (r : Nat) (tag : Byte) : Keeps s (s.checkReference r tag) := by
  unfold State.checkReference
  split
  · exact s.raise_keeps _ _ _
  · exact .refl s

theorem State.checkOtherChannels_keeps (s : State) (c : Nat) (tag : Byte) : Keeps s (s.checkOtherChannels c tag) := by
  refine Keeps.foldl _ (fun t k => ?_) _ s
  split
  · exact .refl t
  · exact t.checkChannel_keeps k tag

theorem State.checkOtherReferences_keeps (s : State) (r : Nat) (tag : Byte) : Keeps s (s.checkOtherReferences r tag) := by
  refine Keeps.foldl _ (fun t k => ?_) _ s
  split
  · exact .refl t
  · exact t.checkReference_keeps k tag

/-! ### Comparison states and fault units -/

theorem State.putComparison_keeps (s : State) (c : Nat) (m : ComparisonState)
    (h : s.comparator.inRange = true → ComparisonInRange s.comparator (s.channel c).comparison → ComparisonInRange s.comparator m) :
    Keeps s (s.putComparison c m) :=
  (s.putComparison_compared c m).keeps fun k hc => h k.1 (FieldsInRange.channel k hc).2.2.1

theorem State.resetComparison_keeps (s : State) (c : Nat) : Keeps s (s.resetComparison c) :=
  s.putComparison_keeps c _ fun params h => ComparisonInRange.cleared params h

theorem State.clearPending_keeps (s : State) (c : Nat) : Keeps s (s.clearPending c) := s.putComparison_keeps c _ fun _ h => h

theorem State.resetComparisonFully_keeps (s : State) (c : Nat) : Keeps s (s.resetComparisonFully c) :=
  (s.resetComparison_keeps c).trans (State.clearPending_keeps _ c)

/-- A change of every channel's comparison state that keeps it in range. -/
theorem State.mapComparisons_keeps (s : State) (f : Channel → ComparisonState)
    (h : s.comparator.inRange = true → ∀ ch, ComparisonInRange s.comparator ch.comparison → ComparisonInRange s.comparator (f ch)) :
    Keeps s (s.setChannels (s.channels.map fun ch => { ch with comparison := f ch })) :=
  s.mapChannels_keeps _ (fun _ => rfl) fun k ch range => by
    obtain ⟨slot, clip, comparison, rest⟩ := range
    exact ⟨slot, clip, h k.1 ch comparison, rest⟩

theorem State.clearAllPending_keeps (s : State) : Keeps s s.clearAllPending := s.mapComparisons_keeps _ fun _ _ h => h

/-- A fault unit written that keeps its log's law. -/
theorem State.setUnit_keeps (s : State) (u : FaultUnit) (h : FaultLogSound s.unit → FaultLogSound u) : Keeps s (s.setUnit u) := ⟨h, id, id⟩

/-- CLEAR FAULTS clears the record with the status it names (R168). -/
theorem FaultUnit.clear_log (u : FaultUnit) (classes : BitVec 12) (h : FaultLogSound u) : FaultLogSound (u.clear classes) := by
  unfold FaultLogSound at h
  cases record : u.record with
  | none =>
    have unnamed : u.recordIn classes = false := by simp only [FaultUnit.recordIn, record]
    simp only [record] at h
    simpa [FaultUnit.clear, unnamed, FaultLogSound, record] using h
  | some r =>
    have named : u.recordIn classes = classes.getLsbD r.cls.code := by simp only [FaultUnit.recordIn, record]
    have set : u.status.getLsbD r.cls.code = true := by
      rw [record] at h
      exact h
    unfold FaultUnit.clear
    simp only [named]
    split
    · rfl
    · next other =>
      simp only [FaultLogSound, record, FaultUnit.isSet, BitVec.getLsbD_and, BitVec.getLsbD_not, set, r.cls.code_lt, decide_true, other,
        Bool.not_false, Bool.and_self]

/-! ### Distinct slots -/

/-- Slots stay distinct when one record takes a slot that no other has. -/
theorem distinct_of_taken {n c : Nat} {f g : Nat → Option Nat} {slot : Option Nat}
    (h : ∀ i < n, ∀ j < n, i ≠ j → f i ≠ none → f i ≠ f j) (other : ∀ k, g k = f k ∨ k = c ∧ g k = slot)
    (free : ∀ k < n, k ≠ c → slot ≠ none → f k ≠ slot) : ∀ i < n, ∀ j < n, i ≠ j → g i ≠ none → g i ≠ g j := by
  intro i hi j hj ij named
  rcases other i with gi | ⟨ic, gi⟩ <;> rcases other j with gj | ⟨jc, gj⟩
  · rw [gi] at named ⊢
    exact gj ▸ h i hi j hj ij named
  · rw [gi] at named ⊢
    exact gj ▸ fun e => free i hi (jc ▸ ij) (e ▸ named) e
  · rw [gi] at named ⊢
    exact gj ▸ fun e => free j hj (ic ▸ Ne.symm ij) named e.symm
  · exact absurd (ic.trans jc.symm) ij

theorem State.putChannel_slots (s : State) (c : Nat) (x : Channel) (free : s.slotTaken c x.slot = false) (h : SlotsDistinct s) :
    SlotsDistinct (s.putChannel c x) := by
  obtain ⟨channels, references⟩ := h
  refine ⟨distinct_of_taken (c := c) (slot := x.slot) channels (fun k => ?_) fun k hk other named same => ?_, references⟩
  · rw [s.channel_putChannel c k x]
    split
    · next e => exact .inr ⟨e.1.symm, rfl⟩
    · exact .inl rfl
  · refine Bool.eq_false_iff.mp free ?_
    unfold State.slotTaken
    simp only [Bool.and_eq_true, List.any_eq_true, List.mem_range, Option.isSome_iff_ne_none]
    exact ⟨named, k, hk, by simp [other], by simp [same]⟩

theorem State.putReference_slots (s : State) (r : Nat) (x : Reference) (free : s.outSlotTaken r x.slot = false) (h : SlotsDistinct s) :
    SlotsDistinct (s.putReference r x) := by
  obtain ⟨channels, references⟩ := h
  refine ⟨channels, distinct_of_taken (c := r) (slot := x.slot) references (fun k => ?_) fun k hk other named same => ?_⟩
  · by_cases e : r = k
    · subst e
      by_cases hr : r < s.references.length
      · exact .inr ⟨rfl, by rw [s.reference_putReference_self r x hr]⟩
      · exact .inl (by simp [State.reference, hr])
    · exact .inl (by rw [s.reference_putReference_ne r k x e])
  · refine Bool.eq_false_iff.mp free ?_
    unfold State.outSlotTaken
    simp only [Bool.and_eq_true, List.any_eq_true, List.mem_range, Option.isSome_iff_ne_none]
    exact ⟨named, k, hk, by simp [other], by simp [same]⟩

/-- A slot byte names a slot no higher than the byte says (11.3). -/
theorem slotOf_le {b : Byte} {k n : Nat} (h : slotOf b = some k) (limit : ¬(n < b.toNat ∧ b ≠ 0xFF)) : k ≤ n := by
  unfold slotOf at h
  split at h
  · cases h
  · next named =>
    obtain rfl := Option.some.inj h
    exact Nat.le_of_not_lt fun above => limit ⟨above, named⟩

/-! ### The commands of chapter 1 -/

theorem State.allocate_keeps (s : State) (p c r n step : Nat) (range : 1 ≤ step ∧ step ≤ 10) : Keeps s (s.allocate p c r n step) := by
  unfold State.allocate
  refine .trans ?_ (State.resetComparisonFully_keeps _ c)
  refine .trans ?_ (State.putChannel_keeps _ c _ rfl fun h hc => FieldsInRange.channel h hc)
  refine .trans ?_ (State.setSeed_keeps _ _)
  exact (s.setPool_keeps _).trans (State.putPath_keeps_of_step _ p _ range)

theorem State.takeAllocatePath_keeps (s : State) (tag channel reference : Byte) (length : Half) (step : Byte) :
    Keeps s (s.takeAllocatePath tag channel reference length step) := by
  refine s.take_keeps _ _ _ ?_
  have read2 := s.checkReference_keeps reference.toNat tag
  have read4 := read2.trans (State.checkChannel_keeps (s.checkReference reference.toNat tag) channel.toNat tag)
  split
  · exact .refl s
  · next inRange =>
    dsimp only
    split
    · exact read2
    split
    · exact read2
    split
    · exact read4
    split
    · exact read4
    split
    · exact read4
    split
    · exact read4
    · exact read4.trans (State.allocate_keeps _ _ _ _ _ _ (by omega))

theorem State.endWorkOn_keeps (s : State) (p : Nat) : Keeps s (s.endWorkOn p) := by
  have cleared : Keeps s (match (s.path p).owner with
      | some c => s.clearPending c
      | none => s) := by
    split
    · exact s.clearPending_keeps _
    · exact .refl s
  have ended : ∀ t : State, Keeps s t → Keeps s (if t.readbackOf p then t.abortReadback else t) := by
    intro t ht
    split
    · exact ht.trans t.abortReadback_keeps
    · exact ht
  exact ended _ (cleared.trans (State.setSeed_keeps _ _))

theorem State.release_keeps (s : State) (p : Nat) : Keeps s (s.release p) := by
  have freed := ((s.endWorkOn_keeps p).trans (State.setPool_keeps _ _)).trans
    (State.putPath_keeps_of_step ((s.endWorkOn p).returnFree ((s.endWorkOn p).path p).chain) p PathRecord.unused ⟨by decide, by decide⟩)
  unfold State.release
  simp only
  split
  · refine .trans ?_ (State.resetComparisonFully_keeps _ _)
    exact freed.trans (State.putChannel_keeps _ _ _ rfl fun h hc => FieldsInRange.channel h hc)
  · exact freed

theorem State.resetOwner_keeps (s : State) (p : Nat) : Keeps s (s.resetOwner p) := by
  unfold State.resetOwner
  split
  · exact s.resetComparisonFully_keeps _
  · exact .refl s

theorem State.truncate_keeps (s : State) (p n : Nat) : Keeps s (s.truncate p n) := by
  unfold State.truncate
  refine .trans ?_ (State.resetOwner_keeps _ p)
  exact (s.setPool_keeps _).trans (State.putPath_keeps _ p _ rfl)

theorem State.extend_keeps (s : State) (p n : Nat) : Keeps s (s.extend p n) := by
  unfold State.extend
  refine .trans ?_ (State.resetOwner_keeps _ p)
  refine .trans ?_ (State.setSeed_keeps _ _)
  exact (s.setPool_keeps _).trans (State.putPath_keeps _ p _ rfl)

theorem State.takeReleasePath_keeps (s : State) (tag path : Byte) : Keeps s (s.takeReleasePath tag path) := by
  refine s.take_keeps _ _ _ ?_
  split
  · exact .refl s
  split
  · exact .refl s
  · exact s.release_keeps _

theorem State.takeResizePath_keeps (s : State) (tag path : Byte) (length : Half) : Keeps s (s.takeResizePath tag path length) := by
  refine s.take_keeps _ _ _ ?_
  have checked : Keeps s (match (s.path path.toNat).reference with
      | some k => s.checkReference k tag
      | none => s) := by
    split
    · exact s.checkReference_keeps _ _
    · exact .refl s
  split
  · exact .refl s
  split
  · exact .refl s
  split
  · exact .refl s
  dsimp only
  split
  · exact .refl s
  split
  · exact .refl s
  split
  · exact .refl s
  split
  · exact checked.trans (State.truncate_keeps _ _ _)
  · exact checked.trans (State.extend_keeps _ _ _)

theorem State.takeSetStep_keeps (s : State) (tag path step : Byte) : Keeps s (s.takeSetStep tag path step) := by
  refine s.take_keeps _ _ _ ?_
  split
  · exact .refl s
  split
  · exact .refl s
  split
  · exact .refl s
  · next range => exact s.putPath_keeps_of_step _ _ (by show 1 ≤ step.toNat ∧ step.toNat ≤ 10; omega)

/-! ### The commands of chapter 2 -/

/-- A channel record written by WRITE CHANNEL is in its ranges (R25, R28). -/
theorem ChannelInRange.rebound {p : ComparatorParams} {ch : Channel} (params : p.inRange = true) (h : ChannelInRange p ch)
    {slot : Option Nat} (named : ∀ k, slot = some k → k ≤ 31) (mode : ChannelMode) : ChannelInRange p (ch.rebound slot mode) := by
  obtain ⟨-, clip, comparison, detector, suppressor⟩ := h
  have counted : (if ch.slot = slot then ch.clipRun else 0) ≤ 32 := by split <;> omega
  unfold Channel.rebound
  simp only
  split
  · exact ⟨named, counted, comparison, detector, suppressor⟩
  · obtain ⟨a1, a2, r1, r2, o1, o2, -, -, rest⟩ := suppressor
    exact ⟨named, counted, ComparisonInRange.cleared params comparison, DetectorInRange.countersReset detector,
      a1, a2, r1, r2, o1, o2, show (-90 : Int) ≤ 0 by decide, Int.le_refl 0, rest⟩

theorem Channel.rebound_slot (ch : Channel) (slot : Option Nat) (mode : ChannelMode) : (ch.rebound slot mode).slot = slot := by
  unfold Channel.rebound
  simp only
  split <;> rfl

theorem State.takeWriteChannel_keeps (s : State) (tag channel slot mode : Byte) : Keeps s (s.takeWriteChannel tag channel slot mode) := by
  refine s.take_keeps _ _ _ ?_
  have others := s.checkOtherChannels_keeps channel.toNat tag
  split
  · exact .refl s
  next inRange =>
  split
  · exact .refl s
  next m _ =>
  dsimp only
  split
  · exact others
  next free =>
  have checked := State.checkChannel_reports (s.checkOtherChannels channel.toNat tag) channel.toNat tag
  refine (others.trans (State.checkChannel_keeps _ channel.toNat tag)).trans ⟨id, ?_, ?_⟩
  · refine State.putChannel_slots _ _ _ ?_
    rw [Channel.rebound_slot]
    simpa only [State.slotTaken, checked.channel, Bool.not_eq_true] using free
  · intro h
    obtain ⟨params, r, ms, channels, rest⟩ := id h
    exact ⟨params, r, ms, List.forall_mem_set channels fun hc =>
      ChannelInRange.rebound params (FieldsInRange.channel h hc) (fun k named => slotOf_le named (not_or.mp inRange).2) m, rest⟩

theorem State.resetUsers_keeps (s : State) (r : Nat) : Keeps s (s.resetUsers r) := by
  refine s.mapChannels_keeps _ (fun ch => ?_) fun h ch range => ?_
  · split <;> rfl
  · split
    · obtain ⟨slot, clip, comparison, rest⟩ := range
      exact ⟨slot, clip, ComparisonInRange.cleared h.1 comparison, rest⟩
    · exact range

/-- WRITE REFERENCE, every check of R36 passed. -/
theorem State.writeReference_keeps (s : State) (r : Nat) (slot : Option Nat) (bulk depth : Nat) (threshold : Int) (hangover : Nat)
    (free : s.outSlotTaken r slot = false) (named : ∀ k, slot = some k → k ≤ 15) (delay : bulk ≤ 127) (deep : depth ≤ 3)
    (low : -180 ≤ threshold) (high : threshold ≤ -40) (hang : hangover ≤ 255) :
    Keeps s (s.writeReference r slot bulk depth threshold hangover) := by
  have written : ∀ x : Reference, x.slot = slot → x.bulk = bulk → x.depth = depth → x.threshold = threshold → x.hangover = hangover →
      (x.hangoverCount = 0 ∨ x.hangoverCount = (s.reference r).hangoverCount) → Keeps s (s.putReference r x) := by
    rintro x rfl rfl rfl rfl rfl count
    refine ⟨id, s.putReference_slots r x free, fun h => ?_⟩
    obtain ⟨params, references, rest⟩ := id h
    refine ⟨params, List.forall_mem_set references fun hr => ?_, rest⟩
    have bounded : x.hangoverCount ≤ 255 := by
      obtain ⟨-, -, -, -, -, -, counted⟩ := FieldsInRange.reference h hr
      omega
    exact ⟨named, delay, deep, low, high, hang, bounded⟩
  unfold State.writeReference
  simp only
  split
  · refine ((written _ rfl rfl rfl rfl rfl (.inl rfl)).trans ((State.putHistory_keeps _ r _).trans
      (State.putModulator_keeps _ r _ fun _ _ => ?_))).trans (State.resetUsers_keeps _ r)
    exact Nat.zero_le _
  · have put := written
      { slot := slot, bulk := bulk, depth := depth, threshold := threshold, hangover := hangover, active := (s.reference r).active,
        hangoverCount := (s.reference r).hangoverCount, parityBad := false } rfl rfl rfl rfl rfl (.inr rfl)
    have cleared := put.trans (State.putModulator_keeps _ r (Modulator.cleared _) fun h hr => FieldsInRange.sweep h hr)
    split
    · split
      · exact cleared.trans (State.resetUsers_keeps _ r)
      · exact put.trans (State.resetUsers_keeps _ r)
    · split
      · exact cleared
      · exact put

theorem State.takeWriteReference_keeps (s : State) (tag reference slot bulk depth : Byte) (threshold : Half) (hangover : Byte) :
    Keeps s (s.takeWriteReference tag reference slot bulk depth threshold hangover) := by
  refine s.take_keeps _ _ _ ?_
  have others := s.checkOtherReferences_keeps reference.toNat tag
  split
  · exact .refl s
  next inRange =>
  simp only [not_or] at inRange
  obtain ⟨-, named, delay, deep, low, high⟩ := inRange
  dsimp only
  split
  · exact others
  next free =>
  split
  · exact others
  split
  · exact others
  have checked := State.checkReference_reports (s.checkOtherReferences reference.toNat tag) reference.toNat tag
  refine (others.trans (State.checkReference_keeps _ _ tag)).trans (State.writeReference_keeps _ _ _ _ _ _ _ ?_
    (fun k h => slotOf_le h named) (by omega) (by omega) (by omega) (by omega) (by omega))
  simpa only [State.outSlotTaken, checked.reference, Bool.not_eq_true] using free

/-! ### The commands of chapters 3 to 7 -/

theorem State.freeze_keeps (s : State) (c : Nat) (value : Bool) : Keeps s (s.freeze c value) := by
  have frozen := s.putChannel_keeps c { s.channel c with frozen := value } rfl fun h hc => FieldsInRange.channel h hc
  unfold State.freeze
  simp only
  split
  · exact .refl s
  split
  · exact frozen.trans (State.resetComparisonFully_keeps _ c)
  · exact frozen.trans (State.resetComparison_keeps _ c)

theorem State.takeWriteCoeff_keeps (s : State) (tag path : Byte) (index : Half) (taps : Slot) :
    Keeps s (s.takeWriteCoeff tag path index taps) := by
  refine s.take_keeps _ _ _ ?_
  split
  · exact .refl s
  split
  · exact .refl s
  split
  · exact .refl s
  split
  · exact .refl s
  · exact s.writePartition_keeps _ _

/-- New comparator parameters in range, with every channel's comparison state brought under them (R77, R78). -/
theorem State.writeComparison_keeps (s : State) (p : ComparatorParams) (params : p.inRange = true) : Keeps s (s.writeComparison p) where
  log := id
  slots := SlotsDistinct.congr
    (s.channel_map_congr Channel.slot (fun ch => { ch with comparison := ch.comparison.underParams s.comparator p }) fun _ => rfl) fun _ => rfl
  ranges h := by
    obtain ⟨-, references, modulators, channels, rest⟩ := h
    refine ⟨params, references, modulators, ?_, rest⟩
    show ∀ x ∈ s.channels.map _, _
    rw [List.forall_mem_map]
    intro ch hch
    obtain ⟨slot, clip, comparison, fields⟩ := channels ch hch
    exact ⟨slot, clip, ComparisonInRange.underParams params comparison, fields⟩

theorem State.takePromoteChannel_keeps (s : State) (tag channel : Byte) : Keeps s (s.takePromoteChannel tag channel) := by
  refine s.take_keeps _ _ _ ?_
  split
  · exact .refl s
  dsimp only
  split
  · exact .refl s
  split
  · exact .refl s
  · exact s.applyPromotion_keeps _

theorem State.takeWriteDetector_keeps (s : State) (tag channel near echo debounce hangover : Byte) :
    Keeps s (s.takeWriteDetector tag channel near echo debounce hangover) := by
  refine s.take_keeps _ _ _ ?_
  split
  · exact .refl s
  next inRange =>
  refine s.putChannel_keeps _ _ rfl fun h hc => ?_
  obtain ⟨slot, clip, comparison, ⟨-, -, -, -, -, -, counted, hung⟩, suppressor⟩ := FieldsInRange.channel h hc
  refine ⟨slot, clip, comparison, ⟨?_, ?_, ?_, ?_, ?_, ?_, counted, hung⟩, suppressor⟩ <;> dsimp only <;> omega

/-- An entry that WRITE DECISION's checks let through is in its ranges (R103, R108). -/
theorem decisionEntryOf_inRange {control mask want target : Byte} (limit : ¬45 < target.toNat) (whole : ¬target.toNat % 3 ≠ 0)
    (within : ¬want &&& ~~~mask ≠ 0) : EntryInRange (decisionEntryOf control mask want target) := by
  have steps : control.toNat % 4 < 4 := Nat.mod_lt _ (by decide)
  refine ⟨Nat.le_of_lt_succ steps, Nat.le_of_not_lt limit, not_not.mp whole, ?_⟩
  rw [not_not] at within
  show want.setWidth 7 &&& ~~~(mask.setWidth 7) = 0
  have narrowed := congrArg (BitVec.setWidth 7) within
  ext i hi
  have bit := congrArg (fun x : BitVec 7 => x.getLsbD i) narrowed
  have wide : i < 8 := by omega
  simpa [hi, wide] using bit

theorem State.takeWriteDecision_keeps (s : State) (tag bank entry control mask want target : Byte) :
    Keeps s (s.takeWriteDecision tag bank entry control mask want target) := by
  refine s.take_keeps _ _ _ ?_
  split
  · exact .refl s
  next inRange =>
  split
  · exact .refl s
  next within =>
  split
  · exact .refl s
  simp only [not_or] at inRange
  obtain ⟨-, -, -, -, -, limit, whole⟩ := inRange
  have written := decisionEntryOf_inRange (control := control) limit whole within
  refine ⟨id, id, fun h => ?_⟩
  obtain ⟨params, references, modulators, channels, bank0, bank1, rest⟩ := h
  refine ⟨params, references, modulators, channels, ?_⟩
  show (∀ e ∈ (s.decision.putEntry _ _ _).bank0, EntryInRange e) ∧ (∀ e ∈ (s.decision.putEntry _ _ _).bank1, EntryInRange e) ∧
    (s.decision.putEntry _ _ _).active ≤ 1 ∧ _
  unfold Decision.putEntry
  split
  · exact ⟨List.forall_mem_set bank0 fun _ => written, bank1, rest⟩
  · exact ⟨bank0, List.forall_mem_set bank1 fun _ => written, rest⟩

theorem State.takeSelectDecisionBank_keeps (s : State) (tag bank : Byte) : Keeps s (s.takeSelectDecisionBank tag bank) := by
  refine s.take_keeps _ _ _ ?_
  split
  · exact .refl s
  next inRange =>
  refine ⟨id, id, fun h => ?_⟩
  obtain ⟨params, references, modulators, channels, bank0, bank1, -, steps⟩ := h
  exact ⟨params, references, modulators, channels, bank0, bank1, Nat.le_of_not_lt inRange, steps⟩

theorem State.takeWriteSuppressor_keeps (s : State) (tag channel attack release offset : Byte) :
    Keeps s (s.takeWriteSuppressor tag channel attack release offset) := by
  refine s.take_keeps _ _ _ ?_
  split
  · exact .refl s
  next inRange =>
  refine s.putChannel_keeps _ _ rfl fun h hc => ?_
  obtain ⟨slot, clip, comparison, detector, -, -, -, -, -, -, gain⟩ := FieldsInRange.channel h hc
  refine ⟨slot, clip, comparison, detector, ?_, ?_, ?_, ?_, ?_, ?_, gain⟩ <;> dsimp only <;> omega

/-! ### The commands of chapters 9 and 10 -/

theorem State.takeReadPath_keeps (s : State) (tag path set : Byte) (first count : Half) : Keeps s (s.takeReadPath tag path set first count) := by
  have started : ∀ rb, Keeps s (s.startReadback rb) := by
    intro rb
    unfold State.startReadback
    simp only
    split
    · exact (s.setControl_keeps _).trans (State.putPath_keeps _ _ _ rfl)
    · exact s.setControl_keeps _
  refine s.take_keeps _ _ _ ?_
  split
  · exact .refl s
  split
  · exact .refl s
  split
  · exact .refl s
  split
  · exact .refl s
  · exact started _

theorem State.enterMode_keeps (s : State) (mode : OpState) (tag : Byte) : Keeps s (s.enterMode mode tag) := by
  have fresh : Keeps s s.freshChannels := s.mapChannels_keeps _ (fun _ => rfl) fun h ch range => by
    obtain ⟨slot, clip, comparison, detector, suppressor⟩ := range
    exact ⟨slot, clip, ComparisonInRange.cleared h.1 comparison, DetectorInRange.countersReset detector, suppressor⟩
  unfold State.enterMode
  split
  · exact fresh.trans (State.enterState_keeps _ _ _ _)
  · exact s.enterState_keeps _ _ _

theorem State.takeSetMode_keeps (s : State) (tag mode : Byte) : Keeps s (s.takeSetMode tag mode) := by
  refine s.take_keeps _ _ _ ?_
  split
  · exact .refl s
  split
  · exact .refl s
  split
  · exact .refl s
  split
  · exact .refl s
  · exact s.enterMode_keeps _ tag

/-! ### Resets -/

theorem slotsDistinct_reset : SlotsDistinct State.reset := by
  have channel : ∀ i, (State.reset.channel i).slot = none := by
    intro i
    have : State.reset.channel i = Channel.initial i := by
      unfold State.channel State.reset
      by_cases h : i < 24 <;> simp [h]
    rw [this]
    rfl
  have reference : ∀ i, (State.reset.reference i).slot = none := by
    intro i
    unfold State.reference State.reset
    simp only [List.getD_eq_getElem?_getD, List.getElem?_replicate]
    split <;> rfl
  exact ⟨fun i _ _ _ _ h => absurd (channel i) h, fun i _ _ _ _ h => absurd (reference i) h⟩

theorem channelInRange_initial (c : Nat) (h : c < 24) : ChannelInRange ComparatorParams.initial (Channel.initial c) := by
  have detector : DetectorInRange DetectorState.initial := by
    unfold DetectorInRange
    decide
  refine ⟨fun k e => (by cases e), Nat.zero_le 32, ComparisonInRange.initial (by decide), detector, ?_⟩
  unfold SuppressorInRange Channel.initial SuppressorState.initial
  simp only
  omega

theorem fieldsInRange_reset : FieldsInRange State.reset := by
  refine ⟨by decide, fun r hr => ?_, fun m hm => ?_, fun ch hch => ?_, ?_, ?_, by decide, fun r hr => ?_⟩
  · rw [List.eq_of_mem_replicate hr]
    exact ⟨fun k e => (by cases e), by decide, by decide, by decide, by decide, by decide, by decide⟩
  · rw [List.eq_of_mem_replicate hm]
    decide
  · obtain ⟨c, hc, rfl⟩ := List.mem_map.mp hch
    exact channelInRange_initial c (List.mem_range.mp hc)
  · unfold EntryInRange
    decide
  · unfold EntryInRange
    decide
  · rw [List.eq_of_mem_replicate hr]
    decide

/-- A reset of the tables, whatever control unit and ports it leaves (R170). -/
theorem Keeps.of_reset {s t : State} (log : FaultLogSound s.unit → FaultLogSound t.unit) (modulators : t.modulators = State.reset.modulators)
    (references : t.references = State.reset.references) (channels : t.channels = State.reset.channels) (paths : t.paths = State.reset.paths)
    (comparator : t.comparator = State.reset.comparator) (decision : t.decision = State.reset.decision) : Keeps s t where
  log := log
  slots _ := SlotsDistinct.congr (fun i => by simp [State.channel, channels]) (fun i => by simp [State.reference, references])
    slotsDistinct_reset
  ranges _ := by
    unfold FieldsInRange
    rw [modulators, references, channels, paths, comparator, decision]
    exact fieldsInRange_reset

theorem State.takeResetFull_keeps (s : State) (tag : Byte) : Keeps s (s.takeResetFull tag) := by
  refine s.take_keeps _ _ _ (Keeps.of_reset (fun h => ?_) rfl rfl rfl rfl rfl rfl)
  exact FaultLogSound.congr rfl rfl rfl ((s.clearAllPending_keeps.trans (State.abortReadback_keeps _)).log h)

theorem PathRecord.relearning_step (r : PathRecord) : r.relearning.step = r.step := by
  unfold PathRecord.relearning
  split <;> rfl

theorem State.takeResetAdaptation_keeps (s : State) (tag : Byte) : Keeps s (s.takeResetAdaptation tag) := by
  refine s.take_keeps _ _ _ ?_
  have ended := s.clearAllPending_keeps.trans (State.abortReadback_keeps _)
  have relearned : ∀ t : State, Keeps t (t.setPaths (t.paths.map PathRecord.relearning)) := fun t =>
    .of_eq rfl rfl rfl rfl rfl rfl (by simp [Function.comp_def, PathRecord.relearning_step])
  exact ((ended.trans (relearned _)).trans (State.setSeed_keeps _ _)).trans
    (State.mapComparisons_keeps _ _ fun params _ _ => ComparisonInRange.initial params)

/-! ### Every command -/

theorem State.takeRow_keeps (s : State) (i : Instr) : Keeps s (s.takeRow i) := by
  cases i with
  | allocatePath t channel reference length step => exact s.takeAllocatePath_keeps t channel reference length step
  | releasePath t path => exact s.takeReleasePath_keeps t path
  | resizePath t path length => exact s.takeResizePath_keeps t path length
  | setStep t path step => exact s.takeSetStep_keeps t path step
  | readPathRecord t path =>
    show Keeps s (s.takeReadPathRecord t path)
    refine s.take_keeps _ _ _ ?_
    split <;> exact .refl s
  | readPool t =>
    show Keeps s (s.takeReadPool t)
    exact s.take_keeps _ _ _ (.refl s)
  | readChain t selector start count =>
    show Keeps s (s.takeReadChain t selector start count)
    refine s.take_keeps _ _ _ ?_
    split
    · exact .refl s
    split
    · exact .refl s
    dsimp only
    generalize (if selector = 0xFE then s.pool.free else (s.path selector.toNat).chain) = chain
    split <;> exact .refl s
  | writeChannel t channel slot mode => exact s.takeWriteChannel_keeps t channel slot mode
  | readChannel t channel =>
    show Keeps s (s.takeReadChannel t channel)
    refine s.take_keeps _ _ _ ?_
    split
    · exact .refl s
    · exact s.checkChannel_keeps _ t
  | writeReference t reference slot bulk depth threshold hangover =>
    exact s.takeWriteReference_keeps t reference slot bulk depth threshold hangover
  | readReference t reference =>
    show Keeps s (s.takeReadReference t reference)
    refine s.take_keeps _ _ _ ?_
    split
    · exact .refl s
    · exact s.checkReference_keeps _ t
  | freezeChannel t channel value =>
    show Keeps s (s.takeFreezeChannel t channel value)
    refine s.take_keeps _ _ _ ?_
    split
    · exact .refl s
    · exact s.freeze_keeps _ _
  | writeCoeff t path index taps => exact s.takeWriteCoeff_keeps t path index taps
  | writeComparison t window promoteMargin promoteCount divergenceMargin divergenceCount reseedLimit threshold =>
    show Keeps s (s.takeWriteComparison t window promoteMargin promoteCount divergenceMargin divergenceCount reseedLimit threshold)
    refine s.take_keeps _ _ _ ?_
    dsimp only
    split
    · next params => exact s.writeComparison_keeps _ params
    · exact .refl s
  | promoteChannel t channel => exact s.takePromoteChannel_keeps t channel
  | readChannelStats t channel =>
    show Keeps s (s.takeReadChannelStats t channel)
    refine s.take_keeps _ _ _ ?_
    split <;> exact .refl s
  | readSeedQueue t start count =>
    show Keeps s (s.takeReadSeedQueue t start count)
    refine s.take_keeps _ _ _ ?_
    split <;> exact .refl s
  | writeDetector t channel near echo debounce hangover => exact s.takeWriteDetector_keeps t channel near echo debounce hangover
  | writeDecision t bank entry control mask want target => exact s.takeWriteDecision_keeps t bank entry control mask want target
  | readDecision t bank entry =>
    show Keeps s (s.takeReadDecision t bank entry)
    refine s.take_keeps _ _ _ ?_
    split
    · exact .refl s
    dsimp only
    split
    · exact s.raise_keeps _ _ _
    · exact .refl s
  | selectDecisionBank t bank => exact s.takeSelectDecisionBank_keeps t bank
  | writeSuppressor t channel attack release offset => exact s.takeWriteSuppressor_keeps t channel attack release offset
  | status t =>
    show Keeps s (s.takeStatus t)
    exact s.take_keeps _ _ _ (.refl s)
  | readPath t path set first count => exact s.takeReadPath_keeps t path set first count
  | abortRead t =>
    show Keeps s (s.takeAbortRead t)
    refine s.take_keeps _ _ _ ?_
    split
    · exact s.abortReadback_keeps
    · exact .refl s
  | setNotice t fault state path =>
    show Keeps s (s.takeSetNotice t fault state path)
    refine s.take_keeps _ _ _ ?_
    split
    · exact .refl s
    · exact s.setControl_keeps _
  | setMode t mode => exact s.takeSetMode_keeps t mode
  | readFaults t =>
    show Keeps s (s.takeReadFaults t)
    exact s.take_keeps _ _ _ (.refl s)
  | clearFaults t classes =>
    show Keeps s (s.takeClearFaults t classes)
    refine s.take_keeps _ _ _ ?_
    split
    · exact .refl s
    · exact s.setUnit_keeps _ (s.unit.clear_log _)
  | writeFaultPolicy t masks severities =>
    show Keeps s (s.takeWriteFaultPolicy t masks severities)
    refine s.take_keeps _ _ _ ?_
    split
    · exact .refl s
    · exact s.setUnit_keeps _ id
  | setSafeAction t action =>
    show Keeps s (s.takeSetSafeAction t action)
    refine s.take_keeps _ _ _ ?_
    split
    · exact .refl s
    · exact s.setUnit_keeps _ id
  | resetFull t => exact s.takeResetFull_keeps t
  | resetAdaptation t => exact s.takeResetAdaptation_keeps t
  | powerOn | resetPinAssert | resetPin | outboundGoodArrival | outboundBadArrival | blockIntervalTimerExpiry | lockAcquired | lockLoss
  | coreSilence | roomSilenceAdvance | roomSilence | inboundGoodArrival | inboundBadArrival | inboundBlockTransmit | seedStep | windowEnd
  | captureClip | activityHangoverExpiry | nearHangoverExpiry => exact .refl s

theorem State.takeCommand_keeps (s : State) (code tag : Byte) (payload : List Byte) : Keeps s (s.takeCommand code tag payload) := by
  unfold State.takeCommand
  split
  · exact s.take_keeps _ _ _ (.refl s)
  split
  · exact s.take_keeps _ _ _ (.refl s)
  split
  · exact s.take_keeps _ _ _ (.refl s)
  · exact s.takeRow_keeps _

end Sys2Proof.Machine
end

section
/-! Every row, and so every step, keeps the fault log's law, the distinct slots and the ranges. -/

namespace Sys2Proof.Machine

open Sys2Proof.Safety

theorem Keeps.whilePortsRun {s : State} {f : State → State} (h : Keeps s (f s)) : Keeps s (s.whilePortsRun f) :=
  State.whilePortsRun_keeps (P := Keeps s) (.refl s) f h

theorem State.outboundGood_keeps (s : State) (seq flags : Byte) (slots : List Slot) (window : List Byte) (stepFirst : Bool) :
    Keeps s (s.outboundGood seq flags slots window stepFirst) := by
  have tapped := ((s.openPeriod_keeps stepFirst).trans (State.judgeHeader_keeps _ seq)).trans (State.tapAll_keeps _ slots)
  have consumed : ∀ (t : State) c, Keeps t (t.takeConsumed c) := fun t c => by
    cases c with
    | none => exact .refl t
    | some c => exact t.takeCommand_keeps _ _ _
  unfold State.outboundGood
  refine .trans ?_ (consumed _ _)
  refine .trans ?_ (State.setPorts_keeps _ _)
  split
  · exact tapped.trans (State.raise_keeps _ _ _ _)
  · exact tapped

theorem State.outboundBad_keeps (s : State) (slots : List Slot) : Keeps s (s.outboundBad slots) := by
  have numbered : Keeps s (s.raise .headerCrc (.port .core) none).advanceSeq := (s.raise_keeps _ _ _).trans (State.setPorts_keeps _ _)
  unfold State.outboundBad
  refine .trans ?_ (State.setPorts_keeps _ _)
  by_cases running : (s.raise .headerCrc (.port .core) none).advanceSeq.ports.timerRunning = true
  · simpa only [running, if_true] using (numbered.trans (State.lostPeriod_keeps _)).trans (State.silentAppendAll_keeps _)
  · simpa only [running, Bool.false_eq_true, if_false] using numbered

theorem State.timerExpires_keeps (s : State) : Keeps s s.timerExpires := by
  unfold State.timerExpires
  split
  · refine .trans ?_ (State.setPorts_keeps _ _)
    exact ((s.setPorts_keeps _).trans (State.lostPeriod_keeps s.advanceSeq)).trans (State.silentAppendAll_keeps _)
  · exact .refl s

theorem State.takeInterlude_keeps (s : State) (x : Interlude) : Keeps s (s.takeInterlude x) := by
  cases x with
  | command code tag payload => exact Keeps.whilePortsRun (f := fun s => s.takeCommand code tag payload) (s.takeCommand_keeps code tag payload)
  | outboundGood seq flags slots window stepFirst => exact (s.outboundGood_keeps seq flags slots window stepFirst).whilePortsRun
  | outboundBad slots => exact (s.outboundBad_keeps slots).whilePortsRun
  | timerExpiry => exact s.timerExpires_keeps
  | seedStep => exact s.takeSeedStep_keeps
  | transmit => exact s.transmit_keeps.whilePortsRun

theorem State.processSlots_keeps (s : State) (between : List (Nat × Interlude)) (slots : List Slot) :
    Keeps s (s.processSlots between slots).2 :=
  State.processSlots_induction (Keeps s) s between slots (.refl s)
    (fun op action arrived slots t c ht => ht.trans (State.channelBlock_keeps op action arrived slots t c))
    fun t x ht => ht.trans (t.takeInterlude_keeps x)

theorem State.sendFiller_keeps (s : State) (between : List (Nat × Interlude)) (slots : List Slot) : Keeps s (s.sendFiller between slots) :=
  ((s.processSlots_keeps between slots).trans (State.setPorts_keeps _ _)).trans (State.setPorts_keeps _ _)

theorem State.forwardPacket_keeps (s : State) (flags : Byte) (window : List Byte) : Keeps s (s.forwardPacket flags window) := by
  unfold State.forwardPacket
  split
  · split
    · exact s.raise_keeps _ _ _
    · split
      · exact s.setControl_keeps _
      · exact s.raise_keeps _ _ _
  · exact .refl s

theorem State.inboundGood_keeps (s : State) (seq flags : Byte) (slots : List Slot) (window : List Byte) (between : List (Nat × Interlude)) :
    Keeps s (s.inboundGood seq flags slots window between) := by
  unfold State.inboundGood
  refine .trans ?_ (State.setPorts_keeps _ _)
  refine .trans ?_ (State.setPorts_keeps _ _)
  exact ((s.setPorts_keeps _).trans (State.processSlots_keeps _ between slots)).trans (State.forwardPacket_keeps _ flags window)

theorem State.inboundBad_keeps (s : State) (slots : List Slot) (between : List (Nat × Interlude)) :
    Keeps s (s.inboundBad slots between) := by
  unfold State.inboundBad
  refine .trans ?_ (State.sendFiller_keeps _ between _)
  split
  · exact (s.raise_keeps _ _ _).trans (State.setPorts_keeps _ _)
  · exact s.raise_keeps _ _ _

theorem State.roomAdvance_keeps (s : State) (between : List (Nat × Interlude)) : Keeps s (s.roomAdvance between) := by
  have originated : ∀ t : State, Keeps t (if t.ports.origination then t.originate between else t) := by
    intro t
    unfold State.originate
    split
    · split
      · exact t.setPorts_keeps _
      · exact t.sendFiller_keeps between _
    · exact .refl t
  have silent : Keeps s s.roomFallsSilent := by
    unfold State.roomFallsSilent
    dsimp only
    split
    · exact (s.setPorts_keeps _).trans (State.raise_keeps _ _ _ _)
    · exact s.setPorts_keeps _
  refine .trans ?_ (originated _)
  split
  · exact silent
  · split
    · exact s.setPorts_keeps _
    · exact .refl s

theorem State.takeRoomMark_keeps (s : State) (between : List (Nat × Interlude)) : Keeps s (s.takeRoomMark between) := by
  unfold State.takeRoomMark
  split
  · exact (s.setPorts_keeps _).trans (State.roomAdvance_keeps _ between)
  · split
    · exact (s.setPorts_keeps _).trans (State.roomAdvance_keeps _ between)
    · exact .refl s

theorem exec_keeps (i : Instr) (s t : State) (e : exec i s = .next t) : Keeps s t := by
  by_cases command : (commandOf i).isSome = true
  · rw [exec_command i s command] at e
    obtain rfl := Host.Outcome.next.inj e
    exact (s.takeRow_keeps i).whilePortsRun
  · cases i with
    | powerOn =>
      obtain rfl := Host.Outcome.next.inj e
      exact Keeps.of_reset (fun _ => rfl) rfl rfl rfl rfl rfl rfl
    | resetPin =>
      obtain rfl := Host.Outcome.next.inj e
      exact Keeps.of_reset (FaultLogSound.congr rfl rfl rfl) rfl rfl rfl rfl rfl rfl
    | resetPinAssert =>
      obtain rfl := Host.Outcome.next.inj e
      exact s.setPorts_keeps _
    | outboundGoodArrival seq flags slots window stepFirst =>
      obtain rfl := Host.Outcome.next.inj e
      exact (s.outboundGood_keeps seq flags slots window stepFirst).whilePortsRun
    | outboundBadArrival slots =>
      obtain rfl := Host.Outcome.next.inj e
      exact (s.outboundBad_keeps slots).whilePortsRun
    | blockIntervalTimerExpiry =>
      obtain rfl := Host.Outcome.next.inj e
      exact s.timerExpires_keeps
    | lockAcquired =>
      obtain rfl := Host.Outcome.next.inj e
      refine Keeps.whilePortsRun ?_
      split
      · exact s.lockSees_keeps _
      · exact .refl s
    | lockLoss =>
      obtain rfl := Host.Outcome.next.inj e
      split
      · exact s.lockSees_keeps _
      · exact .refl s
    | coreSilence =>
      obtain rfl := Host.Outcome.next.inj e
      split
      · exact s.coreSilenceRises_keeps
      · exact .refl s
    | roomSilenceAdvance between =>
      obtain rfl := Host.Outcome.next.inj e
      exact s.takeRoomMark_keeps between
    | roomSilence between =>
      obtain rfl := Host.Outcome.next.inj e
      split
      · exact s.takeRoomMark_keeps between
      · exact .refl s
    | inboundGoodArrival seq flags slots window between =>
      obtain rfl := Host.Outcome.next.inj e
      exact (s.inboundGood_keeps seq flags slots window between).whilePortsRun
    | inboundBadArrival slots between =>
      obtain rfl := Host.Outcome.next.inj e
      exact (s.inboundBad_keeps slots between).whilePortsRun
    | inboundBlockTransmit =>
      obtain rfl := Host.Outcome.next.inj e
      exact s.transmit_keeps.whilePortsRun
    | seedStep =>
      obtain rfl := Host.Outcome.next.inj e
      exact s.takeSeedStep_keeps
    | windowEnd c capture live background => exact execWindowEnd_keeps s t c capture live background e
    | captureClip c =>
      obtain rfl := Host.Outcome.next.inj e
      dsimp only
      split
      · exact s.clipTest_keeps c true
      · exact .refl s
    | activityHangoverExpiry r =>
      obtain rfl := Host.Outcome.next.inj e
      dsimp only
      split
      · exact s.putReference_tested_keeps r false
      · exact .refl s
    | nearHangoverExpiry c =>
      obtain rfl := Host.Outcome.next.inj e
      dsimp only
      split
      · refine s.putChannel_keeps c _ rfl fun h hc => ?_
        obtain ⟨slot, clip, comparison, detector, suppressor⟩ := FieldsInRange.channel h hc
        exact ⟨slot, clip, comparison, DetectorInRange.update detector false, suppressor⟩
      · exact .refl s
    | _ => exact absurd rfl command

theorem step_keeps (s t : State) (e : step s = .next t) : Keeps s t := by
  unfold Machine.step at e
  split at e
  · obtain rfl := Host.Outcome.next.inj e
    exact .refl s
  · exact (s.setPending_keeps _).trans (exec_keeps _ _ _ e)

/-- Settles O56: every row keeps both laws, by what each of its operations keeps. -/
theorem faultLogAndSlotsKept : Obligations.FaultLogAndSlotsKept := fun s t e => ⟨(step_keeps s t e).log, (step_keeps s t e).slots⟩

/-- Settles O59: every row keeps the ranges, by what each of its operations keeps. -/
theorem rangesKept : Obligations.RangesKept := fun s t e => (step_keeps s t e).ranges

end Sys2Proof.Machine
end

section
/-! The commands of chapter 2 and SET MODE, the single transitions of the detector, the activity test and the clip test, and the blocks of channels that stop after stage 1. -/

namespace Sys2Proof.Machine

open Sys2Proof.Safety

/-! ### Records that a command reads -/

/-- A fold of reports can decide by the state it begins with what reports leave alone. -/
theorem Reports.foldl_congr {s : State} {f g : State → Nat → State} (reports : ∀ v k, Reports v (f v k))
    (same : ∀ v k, Reports s v → f v k = g v k) (l : List Nat) (v : State) (h : Reports s v) : l.foldl f v = l.foldl g v := by
  induction l generalizing v with
  | nil => rfl
  | cons k l ih =>
    rw [List.foldl_cons, List.foldl_cons, ← same v k h]
    exact ih _ (h.trans (reports v k))

theorem State.checkOtherChannels_eq (s : State) (c : Nat) (tag : Byte) :
    s.checkOtherChannels c tag =
      (List.range 24).foldl
        (fun v k => if k ≠ c ∧ (s.channel k).parityBad = true then v.raise .tableParity (.channel k) (some tag) else v) s := by
  refine Reports.foldl_congr (fun v k => ?_) (fun v k h => ?_) _ s (.refl s)
  · split
    · exact .refl v
    · exact v.checkChannel_reports k tag
  · unfold State.checkChannel
    rw [h.channel]
    by_cases own : k = c <;> simp [own]

theorem State.checkOtherReferences_eq (s : State) (r : Nat) (tag : Byte) :
    s.checkOtherReferences r tag =
      (List.range 8).foldl
        (fun v k => if k ≠ r ∧ (s.reference k).parityBad = true then v.raise .tableParity (.reference k) (some tag) else v) s := by
  refine Reports.foldl_congr (fun v k => ?_) (fun v k h => ?_) _ s (.refl s)
  · split
    · exact .refl v
    · exact v.checkReference_reports k tag
  · unfold State.checkReference
    rw [h.reference]
    by_cases own : k = r <;> simp [own]

/-- The check of a channel's record after reports goes by the record as it stood before them. -/
theorem Reports.checkChannel {s t : State} (h : Reports s t) (c : Nat) (tag : Byte) :
    t.checkChannel c tag = if (s.channel c).parityBad then t.raise .tableParity (.channel c) (some tag) else t := by
  unfold State.checkChannel
  rw [h.channel]

theorem Reports.checkReference {s t : State} (h : Reports s t) (r : Nat) (tag : Byte) :
    t.checkReference r tag = if (s.reference r).parityBad then t.raise .tableParity (.reference r) (some tag) else t := by
  unfold State.checkReference
  rw [h.reference]

theorem State.slotTaken_iff (s : State) (c : Nat) (slot : Option Nat) :
    s.slotTaken c slot = true ↔ ∃ k < 24, k ≠ c ∧ slot ≠ none ∧ (s.channel k).slot = slot := by
  simp only [State.slotTaken, Config.numChannels, Bool.and_eq_true, Option.isSome_iff_ne_none, List.any_eq_true, List.mem_range, bne_iff_ne,
    beq_iff_eq]
  exact ⟨fun ⟨named, k, hk, other, same⟩ => ⟨k, hk, other, named, same⟩, fun ⟨k, hk, other, named, same⟩ => ⟨named, k, hk, other, same⟩⟩

theorem State.outSlotTaken_iff (s : State) (r : Nat) (slot : Option Nat) :
    s.outSlotTaken r slot = true ↔ ∃ k < 8, k ≠ r ∧ slot ≠ none ∧ (s.reference k).slot = slot := by
  simp only [State.outSlotTaken, Config.numReferences, Bool.and_eq_true, Option.isSome_iff_ne_none, List.any_eq_true, List.mem_range,
    bne_iff_ne, beq_iff_eq]
  exact ⟨fun ⟨named, k, hk, other, same⟩ => ⟨k, hk, other, named, same⟩, fun ⟨k, hk, other, named, same⟩ => ⟨named, k, hk, other, same⟩⟩

theorem Reports.slotTaken {s t : State} (h : Reports s t) (c : Nat) (slot : Option Nat) : t.slotTaken c slot = s.slotTaken c slot := by
  simp only [State.slotTaken, h.channel]

theorem Reports.outSlotTaken {s t : State} (h : Reports s t) (r : Nat) (slot : Option Nat) :
    t.outSlotTaken r slot = s.outSlotTaken r slot := by
  simp only [State.outSlotTaken, h.reference]

/-! ### Channels -/

theorem modeOf_byte (m : ChannelMode) : modeOf m.byte = some m := by cases m <;> rfl

theorem modeOf_none (b : Byte) (h : 2 < b.toNat) : modeOf b = none := by
  have small : ∀ n : Byte, n.toNat ≤ 2 → b ≠ n := fun n hn e => by
    subst e
    omega
  unfold modeOf
  rw [if_neg (small 0 (by decide)), if_neg (small 1 (by decide)), if_neg (small 2 (by decide))]

/-- WRITE CHANNEL's record, field by field (R28). -/
theorem Channel.rebound_eq (ch : Channel) (slot : Option Nat) (mode : ChannelMode) :
    ch.rebound slot mode =
      { ch with
        slot := slot
        mode := mode
        parityBad := false
        clipRun := if ch.slot = slot then ch.clipRun else 0
        comparison := if ¬(ch.slot = slot ∧ ch.mode = mode) then comparisonReset ch.comparison ch.comparison.pendingPromote else ch.comparison
        detector := if ¬(ch.slot = slot ∧ ch.mode = mode) then { ch.detector with debounce := 0, hangover := 0, nearActive := false }
          else ch.detector
        suppressor := if ¬(ch.slot = slot ∧ ch.mode = mode) then { ch.suppressor with gain := 0 } else ch.suppressor } := by
  unfold Channel.rebound
  by_cases same : ch.slot = slot ∧ ch.mode = mode
  · simp only [same, and_self, if_true, not_true, if_false]
  · simp only [same, if_false, not_false_eq_true, if_true]
    rfl

/-- Settles O42: the checks of R27 one after another, on the records that the mismatches' raises leave as they were. -/
theorem writeChannelEffect : Obligations.WriteChannelEffect := by
  intro s tag channel slot mode accepting ch others named result
  have read := s.checkOtherChannels_reports channel.toNat tag
  have ran : result = _ := exec_taken accepting rfl
  have fold : s.checkOtherChannels channel.toNat tag = others := s.checkOtherChannels_eq channel.toNat tag
  have slotNamed : slotOf slot = named := rfl
  simp only [read.checkChannel, read.slotTaken, s.slotTaken_iff, slotNamed] at ran
  rw [fold] at ran read
  have numbers : channel.toNat ≤ 23 → slot.toNat ≤ 31 ∨ slot = 0xFF → ¬(23 < channel.toNat ∨ 31 < slot.toNat ∧ slot ≠ 0xFF) := by
    rintro inTable inSlots (out | ⟨above, unnamed⟩)
    · omega
    · exact inSlots.elim (Nat.not_le.mpr above) unnamed
  refine ⟨fun out => ?_, fun m inTable inSlots isMode => ⟨fun taken => ?_, fun free => ?_⟩⟩
  · rw [ran]
    by_cases numbers : 23 < channel.toNat ∨ 31 < slot.toNat ∧ slot ≠ 0xFF
    · rw [if_pos numbers]
      rfl
    · rw [if_neg numbers, modeOf_none mode ((or_assoc.mpr out).resolve_left numbers)]
      rfl
  · rw [ran, if_neg (numbers inTable inSlots), isMode, modeOf_byte]
    dsimp only
    rw [if_pos taken]
    rfl
  · intro s0 changed
    have own : others.checkChannel channel.toNat tag = s0 := read.checkChannel channel.toNat tag
    have checked : Reports s s0 := own ▸ read.trans (State.checkChannel_reports others _ tag)
    rw [ran, if_neg (numbers inTable inSlots), isMode, modeOf_byte]
    dsimp only
    rw [if_neg free]
    show Host.Outcome.next (replied (s0.putChannel channel.toNat ((s0.channel channel.toNat).rebound named m)) tag 0x10 .done []) = _
    rw [checked.channel, Channel.rebound_eq, State.putChannel, checked.channels]
    rfl

/-- Settles O43: each read's check and payload. -/
theorem tableReads : Obligations.TableReads := by
  intro s tag accepting
  refine ⟨fun channel => ?_, fun reference => ?_, fun bank entry => ?_⟩
  · intro ch
    rw [exec_taken accepting rfl]
    by_cases out : 23 < channel.toNat
    · rw [if_pos out, if_pos out]
      rfl
    · rw [if_neg out, if_neg out]
      dsimp only
      rw [(s.checkChannel_reports channel.toNat tag).channel]
      rfl
  · intro r
    rw [exec_taken accepting rfl]
    by_cases out : 7 < reference.toNat
    · rw [if_pos out, if_pos out]
      rfl
    · rw [if_neg out, if_neg out]
      dsimp only
      rw [(s.checkReference_reports reference.toNat tag).reference]
      rfl
  · intro e
    have read : s.decision.entry bank.toNat entry.toNat = e := rfl
    have payload : s.decision.bytes bank entry =
        [bank, entry, if s.decision.active = bank.toNat then 1 else 0,
          BitVec.ofNat 8 ((if e.valid then 128 else 0) + (if e.adapt then 64 else 0) + (if e.fill then 32 else 0) + e.stepScale),
          e.mask.setWidth 8, e.want.setWidth 8, byteOf e.target] := by
      simp only [Decision.bytes, read, byteOfBool, DecisionEntry.control, byteOf, flagsByte, decide_eq_true_eq]
    rw [exec_taken accepting rfl]
    by_cases out : 1 < bank.toNat ∨ 15 < entry.toNat
    · rw [if_pos out, if_pos out]
      rfl
    · rw [if_neg out, if_neg out]
      dsimp only
      rw [read, ← payload]
      have kept : (if e.parityBad then s.raise .tableParity (.bankEntry bank.toNat entry.toNat) (some tag) else s).decision = s.decision := by
        split <;> simp
      dsimp only [State.done]
      rw [kept]

/-! ### References -/

theorem State.resetUsers_eq (s : State) (r : Nat) :
    s.resetUsers r =
      { s with
        channels := s.channels.map fun ch =>
          if ∃ p ∈ ch.paths, (s.path p).reference = some r then
            { ch with comparison := comparisonReset ch.comparison ch.comparison.pendingPromote }
          else ch } := by
  unfold State.resetUsers State.setChannels
  simp only [List.any_eq_true, beq_iff_eq]
  rfl

/-- WRITE REFERENCE's effect, field by field (R37, R46). -/
theorem State.writeReference_eq (s : State) (r : Nat) (slot : Option Nat) (bulk depth : Nat) (threshold : Int) (hangover : Nat) :
    s.writeReference r slot bulk depth threshold hangover =
      { s with
        references := s.references.set r
          { slot := slot, bulk := bulk, depth := depth, threshold := threshold, hangover := hangover,
            active := if (s.reference r).slot = slot then (s.reference r).active else false
            hangoverCount := if (s.reference r).slot = slot then (s.reference r).hangoverCount else 0
            parityBad := false }
        histories := if (s.reference r).slot = slot then s.histories else s.histories.set r silentHistory
        modulators :=
          if (s.reference r).slot ≠ slot then s.modulators.set r { sweep := 0, lastIn := 0, lastOut := 0 }
          else if (s.reference r).depth = 0 ∧ depth ≠ 0 then s.modulators.set r { s.modulator r with lastIn := 0, lastOut := 0 }
          else s.modulators
        channels :=
          if (s.reference r).slot = slot ∧ (s.reference r).bulk = bulk then s.channels
          else
            s.channels.map fun ch =>
              if ∃ p ∈ ch.paths, (s.path p).reference = some r then
                { ch with comparison := comparisonReset ch.comparison ch.comparison.pendingPromote }
              else ch } := by
  unfold State.writeReference
  by_cases sameSlot : (s.reference r).slot = slot
  · by_cases resumes : (s.reference r).depth = 0 ∧ depth ≠ 0 <;> by_cases sameBulk : (s.reference r).bulk = bulk <;>
      simp only [sameSlot, resumes, sameBulk, ne_eq, not_true, not_false_eq_true, if_true, if_false, and_self, and_false,
        State.resetUsers_eq] <;> rfl
  · simp only [sameSlot, ne_eq, not_false_eq_true, if_true, if_false, false_and, State.resetUsers_eq]
    rfl

/-- Settles O44: the checks of R36 one after another, on the records that the mismatches' raises leave as they were. -/
theorem writeReferenceEffect : Obligations.WriteReferenceEffect := by
  intro s tag reference slot bulk depth threshold hangover accepting r old others s0 named result inRange taken orphans tooLong
  have read := s.checkOtherReferences_reports reference.toNat tag
  have ran : result = _ := exec_taken accepting rfl
  have fold : s.checkOtherReferences reference.toNat tag = others := s.checkOtherReferences_eq reference.toNat tag
  have slotNamed : slotOf slot = named := rfl
  have ranges : (7 < reference.toNat ∨ (15 < slot.toNat ∧ slot ≠ 0xFF) ∨ 127 < bulk.toNat ∨ 3 < depth.toNat ∨ threshold.toInt < -180 ∨
      -40 < threshold.toInt) ↔ ¬inRange := by
    simp only [inRange, r, not_and_or, not_or, Nat.not_le, Int.not_le, ne_eq]
  have orphaned : (named = none ∧ (s.paths.any fun p => p.uses reference.toNat) = true) ↔ orphans := by
    simp [orphans, PathRecord.uses, r]
  have long : (s.paths.any fun p => p.uses reference.toNat && decide (512 < bulk.toNat + p.length)) = true ↔ tooLong := by
    simp only [tooLong, r, List.any_eq_true, PathRecord.uses, Bool.and_eq_true, bne_iff_ne, beq_iff_eq, decide_eq_true_eq,
      and_assoc]
    rfl
  simp only [ranges, read.checkReference, read.outSlotTaken, s.outSlotTaken_iff, slotNamed, read.paths, orphaned, long] at ran
  rw [fold] at ran read
  refine ⟨fun out => ?_, fun inR conflict => ?_, fun inR free alone => ?_, fun inR free kept long => ?_, fun inR free kept short => ?_⟩
  · rw [ran, if_pos out]
    rfl
  · rw [ran, if_neg (not_not.mpr inR)]
    rw [if_pos conflict]
    rfl
  · rw [ran, if_neg (not_not.mpr inR)]
    rw [if_neg free, if_pos alone]
    rfl
  · rw [ran, if_neg (not_not.mpr inR)]
    rw [if_neg free, if_neg kept, if_pos long]
    rfl
  · have own : others.checkReference r tag = s0 := read.checkReference r tag
    have checked : Reports s s0 := own ▸ read.trans (State.checkReference_reports others _ tag)
    rw [ran, if_neg (not_not.mpr inR)]
    rw [if_neg free, if_neg kept, if_neg short]
    show Host.Outcome.next (replied (s0.writeReference r named bulk.toNat depth.toNat threshold.toInt hangover.toNat) tag 0x12 .done []) = _
    rw [State.writeReference_eq, checked.reference, checked.references, checked.histories, checked.channels]
    simp only [checked.path]
    rfl

/-! ### SET MODE -/

theorem FaultUnit.graveSet_eq_false_iff (u : FaultUnit) : u.graveSet = false ↔ ¬GraveStands u := by
  rw [← u.graveSet_iff, Bool.not_eq_true]

/-- The part enters the mode that SET MODE names, written out (R46, R161). -/
theorem State.enterMode_eq (s : State) (new : OpState) (tag : Byte) (mode : new = .run ∨ new = .bypass) (left : s.unit.opState ≠ .offline) :
    s.enterMode new tag =
      let entered : State :=
        { s with
          unit := { s.unit with opState := new }
          modulators :=
            if new = .run ∧ s.unit.opState = .bypass then s.modulators.map fun m => { m with lastIn := 0, lastOut := 0 } else s.modulators
          channels :=
            if new = .run then
              s.channels.map fun ch =>
                { ch with
                  comparison := comparisonReset ch.comparison ch.comparison.pendingPromote
                  detector := { ch.detector with debounce := 0, hangover := 0, nearActive := false } }
            else s.channels }
      if s.control.enableState then entered.postNotice (.state new .command s.unit.cause) (some tag) else entered := by
  have changed : ∀ (t : State) (v : State), t.changeOpState new = v → t.control.enableState = s.control.enableState →
      v.control.enableState = s.control.enableState → v.unit.cause = s.unit.cause →
      t.enterState new .command (some tag) =
        if s.control.enableState then v.postNotice (.state new .command s.unit.cause) (some tag) else v := by
    rintro t v rfl _ enable cause
    unfold State.enterState
    dsimp only
    rw [enable, cause]
  unfold State.enterMode
  rcases mode with rfl | rfl
  · rw [if_pos rfl]
    refine changed _ _ ?_ rfl rfl rfl
    unfold State.changeOpState
    cases op : s.unit.opState with
    | offline => exact absurd op left
    | run | bypass | safe =>
      have opFresh : s.freshChannels.unit.opState = _ := op
      simp only [opFresh, OpState.dithers]
      rfl
  · rw [if_neg (by decide)]
    exact changed _ _ rfl rfl rfl rfl

/-- Settles O51: the checks of R163 one after another. -/
theorem setModeEffect : Obligations.SetModeEffect := by
  intro s tag mode accepting result
  have ran : result = _ := exec_taken accepting rfl
  refine ⟨fun notRun notBypass => ?_, fun new named => ?_⟩
  · have none : opStateOf mode = none := by
      unfold opStateOf
      rw [if_neg notRun, if_neg notBypass]
    rw [ran, none]
    rfl
  · have some : opStateOf mode = some new := by
      rcases named with ⟨rfl, rfl⟩ | ⟨rfl, rfl⟩ <;> rfl
    rw [some] at ran
    dsimp only at ran
    rw [ran]
    refine ⟨fun offline => ?_, fun already => ?_, fun left other refused => ?_, fun left other locked clear => ?_⟩
    · rw [if_pos offline]
      rfl
    · have left : s.unit.opState ≠ .offline := by
        rw [already]
        rcases named with ⟨rfl, -⟩ | ⟨rfl, -⟩ <;> decide
      rw [if_neg left, if_pos already]
      rfl
    · rw [if_neg left, if_neg other, if_pos]
      · rfl
      · rw [FaultUnit.graveSet_eq_false_iff]
        tauto
    · intro entered
      rw [if_neg left, if_neg other, if_neg]
      · show Host.Outcome.next (replied (s.enterMode new tag) tag 0x80 .done []) = _
        rw [s.enterMode_eq new tag (named.imp And.left And.left) left]
      · rw [FaultUnit.graveSet_eq_false_iff, not_not]
        exact ⟨locked, clear⟩

/-! ### Hangovers -/

/-- Settles O29: the detector's table by its cases, and the two rows by theirs. -/
theorem hangoverExpiries : Obligations.HangoverExpiries := by
  refine ⟨⟨fun d => ⟨fun idle => ?_, fun near => ?_⟩, fun s c run cancel named good near ending => ?_⟩, fun s r active spent => ?_⟩
  · unfold DetectorState.update
    rw [idle]
    exact ⟨rfl, rfl⟩
  · have ends : decide (1 < d.hangover) = decide (d.hangover - 1 ≠ 0) := by
      rw [decide_eq_decide]
      omega
    unfold DetectorState.update
    rw [near]
    exact ⟨rfl, by rw [ends]⟩
  · have performs : s.performsStages c = true := by
      simp [State.performsStages, run, cancel, good, Option.isSome_iff_ne_none.mpr named]
    have spent : (s.channel c).detector.hangover - 1 = 0 := by omega
    have ends : ¬1 < (s.channel c).detector.hangover := by omega
    have update : (s.channel c).detector.update false = { (s.channel c).detector with hangover := 0, nearActive := false } := by
      unfold DetectorState.update
      rw [near]
      simp only [spent, ends, decide_false]
    show execNearHangoverExpiry c s = _
    unfold execNearHangoverExpiry
    dsimp only
    rw [if_pos (by simp [performs, near, ending]), update]
    rfl
  · show execActivityHangoverExpiry r s = _
    unfold execActivityHangoverExpiry Reference.tested
    simp only [active, spent, and_self, if_true, Bool.false_eq_true, Nat.lt_irrefl, if_false]
    rfl

/-! ### Stage 1 and held slots -/

theorem isClipped_iff (b : Slot) : isClipped b = true ↔ ∃ x ∈ b, x = 0x7FFFFF#24 ∨ x = 0x800000#24 := by
  simp [isClipped]

theorem heldOutput_eq (op : OpState) (action : SafeAction) (mode : ChannelMode) (capture : Slot) :
    heldOutput op action mode capture = if op = .run ∧ mode = .mute ∨ op = .safe ∧ action = .mute then silence else capture := by
  cases op <;> cases mode <;> cases action <;> rfl

/-- The block of a channel that stops after stage 1 (R31). -/
theorem State.channelBlock_held (op : OpState) (action : SafeAction) (arrived slots : List Slot) (s : State) (c k : Nat)
    (good : (s.channel c).parityBad = false) (named : (s.channel c).slot = some k) (held : ¬(op = .run ∧ (s.channel c).mode = .cancel)) :
    State.channelBlock op action arrived (slots, s) c =
      (slots.set k (heldOutput op action (s.channel c).mode (arrived.getD k silence)),
        s.clipTest c (isClipped (arrived.getD k silence))) := by
  unfold State.channelBlock
  simp only [good, Bool.false_eq_true, if_false, named, held]

/-- The clip run after the clip test (R34). -/
def clipRunAfter (run : Nat) (clipped : Bool) : Nat := if clipped = true then (if run < 32 then run + 1 else run) else 0

/-- The clip test: the run counted, and CAPTURE_CLIP at the 32nd clipped block in a row (R33, R34). -/
theorem State.clipTest_eq (s : State) (c : Nat) (clipped : Bool) (hc : c < s.channels.length) :
    s.clipTest c clipped =
      let counted : State :=
        { s with channels := s.channels.set c { s.channel c with clipRun := clipRunAfter (s.channel c).clipRun clipped } }
      if clipped = true ∧ (s.channel c).clipRun = 31 then counted.raise .captureClip (.channel c) none else counted := by
  unfold State.clipTest clipRunAfter
  have limit : Config.clipLimit = 32 := rfl
  cases clipped with
  | false => simp only [Bool.false_eq_true, if_false, false_and]; rfl
  | true =>
    simp only [if_true, true_and, limit]
    by_cases fewer : (s.channel c).clipRun < 32
    · have last : (s.channel c).clipRun + 1 = 32 ↔ (s.channel c).clipRun = 31 := by omega
      simp only [fewer, if_true, last]
      rfl
    · have reached : ¬(s.channel c).clipRun = 31 := by omega
      have self : s.channels.set c (s.channel c) = s.channels := by
        have : s.channel c = s.channels[c] := by simp [State.channel, hc]
        rw [this, List.set_getElem_self]
      simp only [fewer, if_false, reached, self]

/-- Settles O28: a channel that stops after stage 1 makes the clip test and leaves what R31 says in its slot. -/
theorem clipTestAndHeldSlots : Obligations.ClipTestAndHeldSlots := by
  refine ⟨fun op action arrived slots s c => ⟨fun bad => ?_, fun good none => ?_, fun k good named held => ?_⟩,
    fun s c named good run => ?_⟩
  · unfold State.channelBlock
    simp only [bad, if_true]
  · unfold State.channelBlock
    simp only [good, Bool.false_eq_true, if_false, none]
  · intro capture clipped
    have hc := s.channel_lt c k named
    have test : ∀ b, isClipped capture = b → (State.channelBlock op action arrived (slots, s) c).2 = s.clipTest c b := fun b e => by
      rw [s.channelBlock_held op action arrived slots c k good named held]
      exact congrArg (s.clipTest c) e
    have isOne : clipped → isClipped capture = true := (isClipped_iff capture).mpr
    refine ⟨?_, fun not => ?_, fun is few => ?_, fun is last => ?_, fun is many => ?_⟩
    · rw [s.channelBlock_held op action arrived slots c k good named held, heldOutput_eq]
    · rw [test false (Bool.eq_false_iff.mpr fun e => not ((isClipped_iff capture).mp e))]
      rfl
    · have below : (s.channel c).clipRun < 32 := by omega
      have notLast : ¬(s.channel c).clipRun = 31 := by omega
      rw [test true (isOne is), s.clipTest_eq c true hc]
      simp only [clipRunAfter, if_true, below, notLast, and_false, if_false]
    · rw [test true (isOne is), s.clipTest_eq c true hc]
      simp only [clipRunAfter, last, if_true, and_self]
      rfl
    · have notBelow : ¬(s.channel c).clipRun < 32 := by omega
      rw [test true (isOne is)]
      unfold State.clipTest
      simp only [if_true, Config.clipLimit, notBelow, if_false]
  · obtain ⟨k, hk⟩ := Option.ne_none_iff_exists'.mp named
    show execCaptureClip c s = _
    unfold execCaptureClip
    dsimp only
    rw [if_pos (by simp [hk, good, run]), s.clipTest_eq c true (s.channel_lt c k hk)]
    simp only [clipRunAfter, run, if_true, and_self]
    rfl

end Sys2Proof.Machine
end

section
/-! Levels, rounding, estimates and residuals, and the block of a CANCEL channel in RUN. -/

namespace Sys2Proof.Machine

open Sys2Proof.Safety

/-! ### Levels (R71, R121) -/

/-- The steps up stop at the first power of ten that reaches the target, or at the limit. -/
theorem stepsUp_spec (target limit acc : Nat) :
    (stepsUp target limit acc < limit → target ≤ acc * 10 ^ stepsUp target limit acc) ∧
      (0 < stepsUp target limit acc → acc * 10 ^ (stepsUp target limit acc - 1) < target) := by
  induction limit generalizing acc with
  | zero => exact ⟨fun h => absurd h (Nat.not_lt_zero _), fun h => absurd h (Nat.lt_irrefl 0)⟩
  | succ n ih =>
    unfold stepsUp
    split
    · next reached => exact ⟨fun _ => by simpa using reached, fun h => absurd h (Nat.lt_irrefl 0)⟩
    · next below =>
      obtain ⟨reaches, short⟩ := ih (acc * 10)
      refine ⟨fun h => ?_, fun _ => ?_⟩
      · rw [pow_succ', ← mul_assoc]
        exact reaches (by omega)
      · rw [Nat.add_sub_cancel]
        rcases Nat.eq_zero_or_pos (stepsUp target n (acc * 10)) with none | some
        · rw [none]
          omega
        · have before := short some
          rwa [mul_assoc, ← pow_succ', Nat.sub_add_cancel some] at before

/-- The steps within stop before the first power of ten that passes the target, or at the limit. -/
theorem stepsWithin_spec (target limit acc : Nat) :
    (0 < stepsWithin target limit acc → acc * 10 ^ stepsWithin target limit acc ≤ target) ∧
      (stepsWithin target limit acc < limit → target < acc * 10 ^ (stepsWithin target limit acc + 1)) := by
  induction limit generalizing acc with
  | zero => exact ⟨fun h => absurd h (Nat.lt_irrefl 0), fun h => absurd h (Nat.not_lt_zero _)⟩
  | succ n ih =>
    unfold stepsWithin
    split
    · next fits =>
      obtain ⟨within, passes⟩ := ih (acc * 10)
      refine ⟨fun _ => ?_, fun h => ?_⟩
      · rw [pow_succ', ← mul_assoc]
        rcases Nat.eq_zero_or_pos (stepsWithin target n (acc * 10)) with none | some
        · rwa [none, pow_zero, mul_one]
        · exact within some
      · rw [pow_succ', ← mul_assoc]
        exact passes (by omega)
    · next above => exact ⟨fun h => absurd h (Nat.lt_irrefl 0), fun _ => by simpa using above⟩

/-- Settles O26: the bounds of the step counts, read as levels. -/
theorem levelsRoundedDown : Obligations.LevelsRoundedDown := by
  refine ⟨fun capture live some => ?_, fun capture => ?_, fun sum reference _ => ?_, fun sum => ?_, by decide, rfl⟩
  · have erle : erleOf capture live = stepsWithin (capture ^ 10) 60 (live ^ 10) := if_neg (Nat.pos_iff_ne_zero.mp some)
    obtain ⟨within, passes⟩ := stepsWithin_spec (capture ^ 10) 60 (live ^ 10)
    rw [erle]
    exact ⟨stepsWithin_le _ _ _, within, passes⟩
  · unfold erleOf
    rcases Nat.eq_zero_or_pos capture with rfl | some
    · rfl
    · rw [if_pos rfl, if_neg (Nat.pos_iff_ne_zero.mp some), if_pos some]
  · obtain ⟨reaches, short⟩ := stepsUp_spec (reference ^ 10) 120 (sum ^ 10)
    obtain ⟨low, high⟩ := wholeLevel_range sum reference
    refine ⟨low, high, fun above => ?_, fun below => ?_⟩ <;> unfold wholeLevel at *
    · rw [neg_neg, Int.toNat_natCast]
      exact reaches (by omega)
    · rw [neg_neg, show ∀ n : Nat, ((n : Int) - 1).toNat = n - 1 by omega]
      exact short (by omega)
  · obtain ⟨reaches, short⟩ := stepsUp_spec (fullSine ^ 40) 480 (sum ^ 40)
    obtain ⟨low, high⟩ := quarterLevel_range sum
    refine ⟨low, high, fun above => ?_, fun below => ?_⟩ <;> unfold quarterLevel at *
    · rw [neg_neg, Int.toNat_natCast]
      exact reaches (by omega)
    · rw [neg_neg, show ∀ n : Nat, ((n : Int) - 1).toNat = n - 1 by omega]
      exact short (by omega)

/-! ### Rounding and limiting -/

/-- The quotient is within a half, and away from zero where it is a half away (spec/00 section 5). -/
theorem roundDiv_spec (num : Int) (den : Nat) (h : 0 < den) :
    2 * (num - roundDiv num den * den).natAbs ≤ den ∧
      (2 * (num - roundDiv num den * den).natAbs = den → num.natAbs < (roundDiv num den).natAbs * den) := by
  have floor : ∀ n : Int, 0 ≤ n → ∃ q : Nat, (2 * n + den) / (2 * den : Int) = q ∧ (2 * den : Int) * q ≤ 2 * n + den ∧
      2 * n + den < (2 * den : Int) * q + 2 * den := by
    intro n hn
    have wide : (0 : Int) < 2 * den := by omega
    obtain ⟨q, hq⟩ := Int.eq_ofNat_of_zero_le (Int.ediv_nonneg (by omega : 0 ≤ 2 * n + den) (Int.le_of_lt wide))
    refine ⟨q, hq, ?_, ?_⟩ <;> rw [← hq]
    · exact Int.mul_ediv_self_le (ne_of_gt wide)
    · have := Int.lt_mul_ediv_self_add (x := 2 * n + den) wide
      omega
  unfold roundDiv
  split
  · next positive =>
    obtain ⟨q, hq, low, high⟩ := floor num positive
    rw [hq, Int.natAbs_natCast]
    have product : (2 * den : Int) * q = 2 * ((q * den : Nat) : Int) := by push_cast; ring
    have cast : (q : Int) * den = ((q * den : Nat) : Int) := by push_cast; ring
    rw [product] at low high
    rw [cast]
    omega
  · next negative =>
    obtain ⟨q, hq, low, high⟩ := floor (-num) (by omega)
    rw [hq, Int.natAbs_neg, Int.natAbs_natCast]
    have product : (2 * den : Int) * q = 2 * ((q * den : Nat) : Int) := by push_cast; ring
    have cast : -(q : Int) * den = -((q * den : Nat) : Int) := by push_cast; ring
    rw [product] at low high
    rw [cast]
    omega

theorem limit24_spec (v : Int) :
    (-8388608 ≤ v → v ≤ 8388607 → (limit24 v).toInt = v) ∧ (v < -8388608 → limit24 v = 0x800000#24) ∧
      (8388607 < v → limit24 v = 0x7FFFFF#24) := by
  refine ⟨fun low high => ?_, fun low => ?_, fun high => ?_⟩ <;> unfold limit24
  · rw [min_eq_right high, max_eq_right low, BitVec.toInt_ofInt]
    simp only [Int.bmod_def]
    omega
  · rw [min_eq_right (by omega), max_eq_left (by omega)]
    rfl
  · rw [min_eq_left (by omega), max_eq_right (by omega)]
    rfl

/-! ### Runs of samples -/

/-- The aligned reference sample for output sample `n` and tap `j` (R50). -/
def alignedSample (history : List Slot) (age n j : Nat) : Sample :=
  if j ≤ n then (history.getD age silence).getD (n - j) 0 else (history.getD (age + 1) silence).getD (64 + n - j) 0

/-- Every block of a history is a slot of 64 samples. -/
def Blocks (history : List Slot) : Prop := ∀ b ∈ history, b.length = 64

theorem Blocks.getD_length {history : List Slot} (h : Blocks history) (age : Nat) : (history.getD age silence).length = 64 := by
  rw [List.getD_eq_getElem?_getD]
  rcases found : history[age]? with _ | b
  · simp [silence]
  · exact h b (List.mem_of_getElem? found)

theorem alignedRun_length {history : List Slot} (h : Blocks history) (age : Nat) : (alignedRun history age).length = 128 := by
  simp only [alignedRun, values, historyBlock, List.length_append, List.length_map, h.getD_length]

/-- Value 64 + n - j of the run is the aligned reference sample for output sample n and tap j. -/
theorem alignedRun_getElem? {history : List Slot} (h : Blocks history) (age n j : Nat) (hn : n < 64) (hj : j < 64) :
    (alignedRun history age)[64 + n - j]? = some (alignedSample history age n j).toInt := by
  have older := h.getD_length (age + 1)
  have newer := h.getD_length age
  unfold alignedRun alignedSample values historyBlock
  by_cases within : j ≤ n
  · have at64 : 64 + n - j - 64 = n - j := by omega
    have inside : n - j < (history.getD age silence).length := by omega
    rw [List.getElem?_append_right (by rw [List.length_map, older]; omega), List.length_map, older, at64, List.getElem?_map, if_pos within,
      List.getElem?_eq_getElem inside, List.getD_eq_getElem _ _ inside]
    rfl
  · have inside : 64 + n - j < (history.getD (age + 1) silence).length := by omega
    rw [List.getElem?_append_left (by rw [List.length_map]; exact inside), List.getElem?_map, if_neg within,
      List.getElem?_eq_getElem inside, List.getD_eq_getElem _ _ inside]
    rfl

theorem alignedForSample_getElem? {history : List Slot} (h : Blocks history) (age n j : Nat) (hn : n < 64) (hj : j < 64) :
    (alignedForSample (alignedRun history age) n)[j]? = some (alignedSample history age n j).toInt := by
  have length : ((alignedRun history age).take (65 + n)).length = 65 + n := by
    rw [List.length_take, alignedRun_length h]
    omega
  unfold alignedForSample
  rw [List.getElem?_reverse (by omega), length, List.getElem?_take, if_pos (by omega), ← alignedRun_getElem? h age n j hn hj]
  congr 1
  omega

theorem alignedForTap_getElem? {history : List Slot} (h : Blocks history) (age n j : Nat) (hn : n < 64) (hj : j < 64) :
    (alignedForTap (alignedRun history age) j)[n]? = some (alignedSample history age n j).toInt := by
  unfold alignedForTap
  rw [List.getElem?_drop, ← alignedRun_getElem? h age n j hn hj]
  congr 1
  omega

/-- A sum of products over two runs whose values are known up to a length. -/
theorem dot_eq_sum (n : Nat) (xs ys : List Int) (f g : Nat → Int) (length : xs.length = n) (hx : ∀ j < n, xs[j]? = some (f j))
    (hy : ∀ j < n, ys[j]? = some (g j)) : dot xs ys = ((List.range n).map fun j => f j * g j).sum := by
  induction n generalizing xs ys f g with
  | zero =>
    rw [List.length_eq_zero_iff] at length
    subst length
    rfl
  | succ n ih =>
    obtain ⟨x, xs, rfl⟩ := List.exists_cons_of_length_eq_add_one length
    cases ys with
    | nil => exact absurd (hy 0 (Nat.succ_pos n)) (by simp)
    | cons y ys =>
      have x0 : x = f 0 := by simpa using hx 0 (Nat.succ_pos n)
      have y0 : y = g 0 := by simpa using hy 0 (Nat.succ_pos n)
      have rest := ih xs ys (fun j => f (j + 1)) (fun j => g (j + 1)) (by simpa using length)
        (fun j hj => by simpa using hx (j + 1) (by omega)) fun j hj => by simpa using hy (j + 1) (by omega)
      rw [dot, rest, List.range_succ_eq_map, List.map_cons, List.sum_cons, List.map_map, x0, y0]
      rfl

theorem values_getElem? {b : Slot} {n : Nat} (length : b.length = n) (j : Nat) (hj : j < n) : (values b)[j]? = some (b.getD j 0).toInt := by
  have inside : j < b.length := by omega
  rw [values, List.getElem?_map, List.getElem?_eq_getElem inside, List.getD_eq_getElem _ _ inside]
  rfl

/-- What one partition adds to the estimate for one output sample (R51). -/
def partitionSum (taps : Slot) (history : List Slot) (age n : Nat) : Int :=
  ((List.range 64).map fun j => (taps.getD j 0).toInt * (alignedSample history age n j).toInt).sum

theorem partitionEstimate_eq {taps : Slot} {history : List Slot} (length : taps.length = 64) (h : Blocks history) (age : Nat) :
    partitionEstimate taps (alignedRun history age) = (List.range 64).map (partitionSum taps history age) := by
  refine List.map_congr_left fun n hn => ?_
  exact dot_eq_sum 64 _ _ _ _ (by simp [values, length]) (values_getElem? length)
    fun j hj => alignedForSample_getElem? h age n j (List.mem_range.mp hn) hj

theorem partitionSum_silence (history : List Slot) (age n : Nat) : partitionSum silence history age n = 0 := by
  have zero : ∀ j < 64, silence.getD j 0 = 0 := fun j hj => by
    rw [silence, List.getD_eq_getElem?_getD, List.getElem?_replicate, if_pos hj]
    rfl
  unfold partitionSum
  rw [List.map_congr_left (g := fun _ => (0 : Int)) fun j hj => by rw [zero j (List.mem_range.mp hj)]; simp]
  simp

theorem addRuns_map (f g : Nat → Int) : addRuns ((List.range 64).map f) ((List.range 64).map g) = (List.range 64).map fun n => f n + g n := by
  unfold addRuns
  rw [List.zipWith_map, List.zipWith_self]

theorem zeroRun_eq : zeroRun = (List.range 64).map fun _ => 0 := by rw [List.map_const', List.length_range]; rfl

/-- A path's estimate: the sum over its chain of what each partition adds (R51). -/
theorem pathEstimate_eq {history : List Slot} (h : Blocks history) (bulk k : Nat) (taps : List Slot) (lengths : ∀ t ∈ taps, t.length = 64) :
    pathEstimate history bulk k taps =
      (List.range 64).map fun n => ((taps.zipIdx k).map fun cell => partitionSum cell.1 history (bulk + cell.2) n).sum := by
  induction taps generalizing k with
  | nil => exact zeroRun_eq
  | cons t rest ih =>
    rw [pathEstimate, partitionEstimate_eq (lengths t List.mem_cons_self) h, ih (k + 1) fun x hx => lengths x (List.mem_cons_of_mem t hx),
      addRuns_map]
    rfl

/-- Runs added one after another. -/
theorem foldl_addRuns {α : Type} (l : List α) (run : α → List Int) (f : α → Nat → Int) (h : ∀ x ∈ l, run x = (List.range 64).map (f x))
    (g : Nat → Int) :
    l.foldl (fun acc x => addRuns acc (run x)) ((List.range 64).map g) = (List.range 64).map fun n => g n + (l.map fun x => f x n).sum := by
  induction l generalizing g with
  | nil => simp
  | cons x l ih =>
    rw [List.foldl_cons, h x List.mem_cons_self, addRuns_map, ih (fun y hy => h y (List.mem_cons_of_mem x hy))]
    simp only [List.map_cons, List.sum_cons, add_assoc]

theorem squareSum_eq (b : Slot) : squareSum b = (b.map fun x => x.toInt.natAbs ^ 2).sum := by
  induction b with
  | nil => rfl
  | cons x xs ih => rw [squareSum, ih, List.map_cons, List.sum_cons]

theorem residualSamples_getElem? (capture : Slot) (sum : List Int) (n : Nat) (x : Sample) (e : Int) (hx : capture[n]? = some x)
    (he : sum[n]? = some e) : (residualSamples capture sum)[n]? = some (limit24 (roundDiv (x.toInt * 8388608 - e) 8388608)) := by
  unfold residualSamples
  rw [List.getElem?_zipWith, hx, he]

/-- A residual block sample by sample (R52). -/
theorem residualSamples_map {capture : Slot} (length : capture.length = 64) (f : Nat → Int) :
    residualSamples capture ((List.range 64).map f) =
      (List.range 64).map fun n => limit24 (roundDiv ((capture.getD n 0).toInt * 8388608 - f n) 8388608) := by
  refine List.ext_getElem? fun n => ?_
  by_cases hn : n < 64
  · have inside : n < capture.length := by omega
    rw [residualSamples_getElem? capture _ n (capture.getD n 0) (f n) (by rw [List.getElem?_eq_getElem inside, List.getD_eq_getElem _ _ inside])
      (by simp [hn])]
    simp [hn]
  · rw [List.getElem?_eq_none, List.getElem?_eq_none] <;> simp [residualSamples, length] <;> omega

/-! ### A tap's move -/

theorem movedTaps_getElem? {divisor : Nat} {residual : List Int} {history : List Slot} {age j : Nat} {taps : Slot}
    (length : taps.length = 64) (run : residual.length = 64) (h : Blocks history) (hj : j < 64) :
    (movedTaps divisor residual (alignedRun history age) taps)[j]? =
      some (limit24 (roundDiv
        ((taps.getD j 0).toInt * divisor +
          83886080000000 * ((List.range 64).map fun n => residual.getD n 0 * (alignedSample history age n j).toInt).sum) divisor)) := by
  have inside : j < taps.length := by omega
  have moved : dot residual (alignedForTap (alignedRun history age) j) =
      ((List.range 64).map fun n => residual.getD n 0 * (alignedSample history age n j).toInt).sum :=
    dot_eq_sum 64 _ _ _ _ run
      (fun n hn => by rw [List.getElem?_eq_getElem (by omega), List.getD_eq_getElem _ _ (by omega)])
      fun n hn => alignedForTap_getElem? h age n j hn hj
  unfold movedTaps movedTap
  rw [List.getElem?_mapIdx, List.getElem?_eq_getElem inside, List.getD_eq_getElem _ _ inside, moved]
  rfl

/-! ### Stage 2 -/

/-- The taps that a read of a stored set yields (R59). -/
theorem CoeffSet.read_length (c : CoeffSet) (h : c.taps.length = 64) : c.read.length = 64 := by
  unfold CoeffSet.read
  split
  · rfl
  · exact h

theorem partitionSum_read (c : CoeffSet) (history : List Slot) (age n : Nat) :
    partitionSum c.read history age n = if c.upset = true then 0 else partitionSum c.taps history age n := by
  unfold CoeffSet.read
  split
  · exact partitionSum_silence history age n
  · rfl

/-- A path's estimate from the sets that `pick` names of its partitions, for one output sample (R40, R51, R59). -/
def State.pathSum (s : State) (pick : PathRecord → SetId) (p n : Nat) : Int :=
  let r := s.path p
  let ref := (r.reference.map s.reference).getD Reference.initial
  let history := (r.reference.map s.history).getD silentHistory
  if ref.parityBad = true then 0
  else
    (r.chain.zipIdx.map fun cell =>
      if (s.coeffs cell.1 (pick r)).upset = true then 0
      else partitionSum (s.coeffs cell.1 (pick r)).taps history (ref.bulk + cell.2) n).sum

theorem State.pathHistory_eq (s : State) (r : PathRecord) : s.pathHistory r = (r.reference.map s.history).getD silentHistory := by
  unfold State.pathHistory
  cases r.reference <;> rfl

theorem State.pathHistory_blocks (s : State) (r : PathRecord) (h : ∀ h ∈ s.histories, Blocks h) : Blocks (s.pathHistory r) := by
  have silent : Blocks silentHistory := fun b hb => by
    rw [List.eq_of_mem_replicate hb]
    rfl
  unfold State.pathHistory
  cases r.reference with
  | none => exact silent
  | some k =>
    show Blocks (s.histories.getD k silentHistory)
    rw [List.getD_eq_getElem?_getD]
    rcases found : s.histories[k]? with _ | x
    · exact silent
    · exact h x (List.mem_of_getElem? found)

theorem State.coeffs_length (s : State) (h : ∀ n, (s.pool.cells.read n).a.taps.length = 64 ∧ (s.pool.cells.read n).b.taps.length = 64)
    (n : Nat) (set : SetId) : (s.coeffs n set).taps.length = 64 := by
  cases set
  · exact (h n).1
  · exact (h n).2

/-- A path's estimate as stage 2 forms it from the sets it has read. -/
theorem State.pathEstimate_read (s : State) (pick : PathRecord → SetId) (p : Nat) (histories : ∀ h ∈ s.histories, Blocks h)
    (taps : ∀ n, (s.pool.cells.read n).a.taps.length = 64 ∧ (s.pool.cells.read n).b.taps.length = 64) :
    (if (s.readForBlock p).refGood then
      pathEstimate (s.readForBlock p).history (s.readForBlock p).bulk 0
        (((s.path p).chain.map fun n => s.coeffs n (pick (s.path p))).map CoeffSet.read)
    else zeroRun) = (List.range 64).map (s.pathSum pick p) := by
  have blocks : Blocks (s.readForBlock p).history := s.pathHistory_blocks _ histories
  have history : (s.readForBlock p).history = ((s.path p).reference.map s.history).getD silentHistory := s.pathHistory_eq _
  have lengths : ∀ t ∈ ((s.path p).chain.map fun n => s.coeffs n (pick (s.path p))).map CoeffSet.read, t.length = 64 := by
    simp only [List.mem_map, exists_exists_and_eq_and]
    rintro t ⟨n, -, rfl⟩
    exact CoeffSet.read_length _ (s.coeffs_length taps n _)
  rw [pathEstimate_eq blocks _ 0 _ lengths]
  unfold State.pathSum
  by_cases bad : (((s.path p).reference.map s.reference).getD Reference.initial).parityBad = true
  · have distrusted : (s.readForBlock p).refGood = false := by simp [State.readForBlock, bad]
    simp only [distrusted, Bool.false_eq_true, if_false, bad, if_true]
    exact zeroRun_eq
  · have trusted : (s.readForBlock p).refGood = true := by simpa [State.readForBlock] using bad
    simp only [trusted, if_true, bad, List.map_map, List.zipIdx_map, Function.comp_def, Prod.map, id, partitionSum_read, ← history]
    rfl

/-- The estimates summed over a channel's paths, for one output sample (R51). -/
def State.estimateSum (s : State) (paths : List Nat) (pick : PathRecord → SetId) (n : Nat) : Int :=
  (paths.map fun p => s.pathSum pick p n).sum

theorem State.foldl_estimates (s : State) (paths : List Nat) (pick : PathRecord → SetId) (estimate : PathRead → List Int)
    (h : ∀ p, estimate (s.readForBlock p) = (List.range 64).map (s.pathSum pick p)) :
    (paths.map s.readForBlock).foldl (fun acc r => addRuns acc (estimate r)) zeroRun = (List.range 64).map (s.estimateSum paths pick) := by
  rw [List.foldl_map, zeroRun_eq, foldl_addRuns paths _ (s.pathSum pick) fun p _ => h p]
  simp only [zero_add]
  rfl

/-- Settles O34: rounding and limiting by their bounds, the sums over aligned samples position by position. -/
theorem sampleArithmetic : Obligations.SampleArithmetic := by
  refine ⟨roundDiv_spec, limit24_spec, fun taps history age n length blocks hn => ?_, residualSamples_getElem?, squareSum_eq,
    fun s paths capture length histories taps => ?_, fun divisor residual history age j taps length run blocks hj => ?_⟩
  · rw [partitionEstimate_eq length blocks]
    simp only [List.getElem?_map, List.getElem?_range hn]
    rfl
  · intro signals estimate residual
    have live := s.foldl_estimates paths (fun r => r.live) PathRead.liveEstimate fun p => s.pathEstimate_read _ p histories taps
    have background := s.foldl_estimates paths (fun r => r.live.other) PathRead.backgroundEstimate fun p =>
      s.pathEstimate_read _ p histories taps
    have sums : ∀ pick n, s.estimateSum paths pick n = estimate pick n := fun pick n => rfl
    have liveSignal : signals.live = residual fun r => r.live := by
      show residualSamples capture _ = _
      rw [live, residualSamples_map length]
      rfl
    have backgroundSignal : signals.background = residual fun r => r.live.other := by
      show residualSamples capture _ = _
      rw [background, residualSamples_map length]
      rfl
    refine ⟨liveSignal, backgroundSignal, rfl, ?_, rfl, rfl⟩
    show squareSum (estimateSamples _) = _
    rw [live, estimateSamples, List.map_map]
    rfl
  · rw [movedTaps_getElem? length run blocks hj]
    rfl

/-! ### The block of a CANCEL channel in RUN -/

theorem State.farIndication_eq (s : State) (c : Nat) :
    s.farIndication c = decide (∃ p ∈ (s.channel c).paths, ∃ r, (s.path p).reference = some r ∧ (s.reference r).active = true) := by
  rw [Bool.eq_iff_iff, s.farIndication_iff, decide_eq_true_eq]

theorem State.seedingIn_eq (s : State) (c : Nat) : s.seedingIn c = decide (∃ p ∈ (s.channel c).paths, (s.path p).state = .seeding) := by
  rw [Bool.eq_iff_iff, decide_eq_true_eq]
  simp [State.seedingIn]

theorem State.heldIn_eq (s : State) (c : Nat) : s.heldIn c = decide (∃ p ∈ (s.channel c).paths, (s.path p).readHeld = true) := by
  rw [Bool.eq_iff_iff, decide_eq_true_eq]
  simp [State.heldIn]

theorem chainFaults_eq (p : Nat) (f g : Nat → CoeffSet) (chain : List Nat) (k : Nat) :
    chainFaults p k (chain.map f) (chain.map g) =
      (chain.zipIdx k).flatMap fun cell =>
        (if (f cell.1).upset then [(FaultClass.coeffParity, Subject.path p cell.2)] else []) ++
          (if (g cell.1).upset then [(FaultClass.coeffParity, Subject.path p cell.2)] else []) := by
  induction chain generalizing k with
  | nil => rfl
  | cons n rest ih => rw [List.map_cons, List.map_cons, chainFaults, ih, List.zipIdx_cons, List.flatMap_cons]

/-- The mismatches that stage 2 meets in reading a path (R40, R59). -/
theorem State.readForBlock_faults (s : State) (p : Nat) :
    (s.readForBlock p).faults =
      (match (s.path p).reference with
        | some j => if (s.reference j).parityBad then [((FaultClass.tableParity, Subject.reference j) : FaultClass × Subject)] else []
        | none => []) ++
        (s.path p).chain.zipIdx.flatMap fun cell =>
          (if ((s.pool.cells.read cell.1).get (s.path p).live).upset then [(FaultClass.coeffParity, Subject.path p cell.2)] else []) ++
            (if ((s.pool.cells.read cell.1).get (s.path p).live.other).upset then [(FaultClass.coeffParity, Subject.path p cell.2)]
            else []) := by
  have chain : chainFaults p 0 (s.readForBlock p).live (s.readForBlock p).background = _ := chainFaults_eq p _ _ (s.path p).chain 0
  unfold PathRead.faults
  rw [show (s.readForBlock p).id = p from rfl, chain]
  congr 1
  have named : (s.readForBlock p).record.reference = (s.path p).reference := rfl
  rw [named]
  cases reference : (s.path p).reference with
  | none => rfl
  | some j =>
    have good : (s.readForBlock p).refGood = !(s.reference j).parityBad := by simp [State.readForBlock, reference]
    simp only [good]
    cases (s.reference j).parityBad <;> rfl

theorem State.readForBlock_congr {s t : State} (paths : t.paths = s.paths) (references : t.references = s.references)
    (histories : t.histories = s.histories) (pool : t.pool = s.pool) : t.readForBlock = s.readForBlock := by
  funext p
  unfold State.readForBlock State.pathHistory State.path State.reference State.history State.coeffs
  rw [paths, references, histories, pool]

theorem State.raiseAll_append (s : State) (xs ys : List (FaultClass × Subject)) : s.raiseAll (xs ++ ys) = (s.raiseAll xs).raiseAll ys :=
  List.foldl_append

/-- A CANCEL channel's block in RUN is the clip test and stages 2 to 7 on the state it leaves (R48). -/
theorem State.channelBlock_cancel (action : SafeAction) (arrived slots : List Slot) (s : State) (c k : Nat)
    (good : (s.channel c).parityBad = false) (named : (s.channel c).slot = some k) (cancel : (s.channel c).mode = .cancel) :
    State.channelBlock .run action arrived (slots, s) c =
      let r := (s.clipTest c (isClipped (arrived.getD k silence))).cancelBlock c (isClipped (arrived.getD k silence)) (arrived.getD k silence)
      (slots.set k r.1, r.2) := by
  unfold State.channelBlock
  simp only [good, Bool.false_eq_true, if_false, named, cancel, and_self, if_true]

/-- A state that differs in one channel's clip run, and in what a raise reports, from the one a block finds. -/
structure Counted (s : State) (c n : Nat) (t : State) : Prop where
  paths : t.paths = s.paths
  references : t.references = s.references
  histories : t.histories = s.histories
  pool : t.pool = s.pool
  decision : t.decision = s.decision
  channel : t.channel c = { s.channel c with clipRun := n }

theorem State.counted (s : State) (c n : Nat) (hc : c < s.channels.length) :
    Counted s c n { s with channels := s.channels.set c { s.channel c with clipRun := n } } :=
  ⟨rfl, rfl, rfl, rfl, rfl, s.channel_putChannel_self c _ hc⟩

theorem Counted.raise {s t : State} {c n : Nat} (h : Counted s c n t) (f : FaultClass) (x : Subject) (tag : Option Byte) :
    Counted s c n (t.raise f x tag) := by
  have told := t.raise_reports f x tag
  exact ⟨told.paths.trans h.paths, told.references.trans h.references, told.histories.trans h.histories, told.pool.trans h.pool,
    told.decision.trans h.decision, (told.channel c).trans h.channel⟩

theorem Counted.read {s t : State} {c n : Nat} (h : Counted s c n t) : t.readForBlock = s.readForBlock :=
  State.readForBlock_congr h.paths h.references h.histories h.pool

theorem Counted.farIndication {s t : State} {c n : Nat} (h : Counted s c n t) : t.farIndication c = s.farIndication c := by
  unfold State.farIndication State.path State.reference
  rw [h.channel, h.paths, h.references]

theorem Counted.seedingIn {s t : State} {c n : Nat} (h : Counted s c n t) : t.seedingIn c = s.seedingIn c := by
  unfold State.seedingIn State.path
  rw [h.channel, h.paths]

theorem Counted.heldIn {s t : State} {c n : Nat} (h : Counted s c n t) : t.heldIn c = s.heldIn c := by
  unfold State.heldIn State.path
  rw [h.channel, h.paths]

/-- A block that ends no window leaves its share in it (R69). -/
theorem State.accumulateWindow_goesOn (s : State) (c : Nat) (x : WindowShare) (h : (s.channel c).comparison.count + 1 < s.comparator.window) :
    s.accumulateWindow c x = s.putComparison c ((s.channel c).comparison.accumulate x) := by
  unfold State.accumulateWindow
  exact if_neg (Nat.not_le.mpr h)

theorem PathRead.adapts_off (r : PathRead) (frozen : Bool) (action : Action) (h : action.adapt = false) : r.adapts frozen action = false := by
  simp [PathRead.adapts, h]

/-- A path whose records and sets are all read without a mismatch meets none. -/
theorem State.readForBlock_faults_nil (s : State) (p : Nat) (trusted : ∀ r, (s.path p).reference = some r → (s.reference r).parityBad = false)
    (sets : ∀ m ∈ (s.path p).chain, (s.pool.cells.read m).a.upset = false ∧ (s.pool.cells.read m).b.upset = false) :
    (s.readForBlock p).faults = [] := by
  have good : ∀ n ∈ (s.path p).chain, ∀ set : SetId, ((s.pool.cells.read n).get set).upset = false := fun n hn set => by
    cases set
    · exact (sets n hn).1
    · exact (sets n hn).2
  rw [s.readForBlock_faults p, List.append_eq_nil_iff, List.flatMap_eq_nil_iff]
  refine ⟨?_, fun cell hcell => ?_⟩
  · cases reference : (s.path p).reference with
    | none => rfl
    | some j => simp [trusted j reference]
  · have listed := List.fst_mem_of_mem_zipIdx hcell
    simp only [good cell.1 listed, Bool.false_eq_true, if_false, List.append_nil]

/-- Settles O36: stages 1 to 7 on the state that the clip test leaves, and the plain case, in which each of them leaves everything else alone. -/
theorem cancelBlockStages : Obligations.CancelBlockStages := by
  constructor
  · intro safeAction arrived slots s c k ch capture clipped good named cancel counted s1 signals far seeding held detector talk flags matched
      suppressor pathMismatches entryMismatches s2 s3 s4
    have hc := s.channel_lt c k named
    have test : s.clipTest c clipped = s1 := s.clipTest_eq c clipped hc
    have same : Counted s c (clipRunAfter ch.clipRun clipped) s1 := by
      show Counted s c _ (if _ then _ else _)
      split
      · exact (s.counted c _ hc).raise _ _ _
      · exact s.counted c _ hc
    have met : (ch.paths.map s.readForBlock).flatMap PathRead.faults = pathMismatches := by
      rw [List.flatMap_map]
      exact List.flatMap_congr fun p _ => s.readForBlock_faults p
    rw [s.channelBlock_cancel safeAction arrived slots c k good named cancel, test]
    dsimp only
    unfold State.cancelBlock
    dsimp only
    rw [same.read, same.farIndication, same.seedingIn, same.heldIn, same.decision, s.farIndication_eq, s.seedingIn_eq, s.heldIn_eq]
    rw [same.channel]
    dsimp only
    rw [met, ← State.raiseAll_append, List.foldl_map]
    have written : s3.putChannel c { ch with
        clipRun := clipRunAfter ch.clipRun clipped, detector := detector, last := { talk := talk, flags := flags }, suppressor := suppressor } =
        s4 := by
      show _ = s3.putChannel c { s1.channel c with detector := detector, last := { talk := talk, flags := flags }, suppressor := suppressor }
      rw [same.channel]
    rw [← written]
    rfl
  · intro safeAction arrived slots s c k ch capture clipped good named cancel goesOn notLast trusted entries signals far seeding held detector
      talk flags act suppressor still
    have hc := s.channel_lt c k named
    let counted : State := { s with channels := s.channels.set c { ch with clipRun := clipRunAfter ch.clipRun clipped } }
    have same : Counted s c (clipRunAfter ch.clipRun clipped) counted := s.counted c _ hc
    have test : s.clipTest c clipped = counted := by
      rw [s.clipTest_eq c clipped hc]
      exact if_neg fun last => notLast last.1 last.2
    have met : (ch.paths.map s.readForBlock).flatMap PathRead.faults = [] := by
      rw [List.flatMap_map, List.flatMap_eq_nil_iff]
      exact fun p hp => s.readForBlock_faults_nil p (trusted p hp).1 (trusted p hp).2
    have unmoved : ∀ (v : State) (residual : List Int) (reads : List PathRead),
        reads.foldl (fun v r => v.adaptPath ch.frozen act residual r) v = v := fun v residual reads =>
      State.foldl_fixed v _ reads fun r _ => by rw [State.adaptPath, r.adapts_off _ _ still]; rfl
    rw [s.channelBlock_cancel safeAction arrived slots c k good named cancel, test]
    dsimp only
    unfold State.cancelBlock
    dsimp only
    rw [same.read, same.farIndication, same.seedingIn, same.heldIn, same.decision, s.farIndication_eq, s.seedingIn_eq, s.heldIn_eq]
    rw [same.channel]
    dsimp only
    have none2 : ∀ flags, (matchEntries flags 0 (s.decision.bank s.decision.active)).2 = [] := fun flags =>
      matchEntries_good flags _ 0 entries
    have nothing : ∀ v : State, v.raiseAll [] = v := fun _ => rfl
    rw [met, none2, List.map_nil, nothing, nothing]
    have length : counted.channels.length = s.channels.length := List.length_set
    let written : Channel := { ch with
      clipRun := clipRunAfter ch.clipRun clipped, detector := detector, last := { talk := talk, flags := flags }, suppressor := suppressor }
    let share : WindowShare :=
      { capture := squareSum capture, live := signals.liveEnergy, background := signals.backgroundEnergy, far := far,
        disturbed := seeding || held }
    have put := fun x => counted.channel_putChannel_self c x (length.symm ▸ hc)
    have adapted : ((ch.paths.map s.readForBlock).foldl (fun v r => v.adaptPath ch.frozen act (values signals.background) r) counted).putChannel
        c written = counted.putChannel c written := by
      rw [unmoved]
    refine Prod.ext rfl (Eq.trans (congrArg (State.accumulateWindow · c share) adapted)
      ((State.accumulateWindow_goesOn _ c share ?_).trans ?_))
    · rw [put]
      exact goesOn
    · rw [State.putComparison, put, State.putChannel_putChannel]
      show ({ s with channels := (s.channels.set c _).set c _ } : State) = _
      rw [List.set_set]
      rfl

end Sys2Proof.Machine
end


section
/-! The outbound side of the core port: what a tap, a silent append and the lock's judgement touch, the dither modulator (O7), the undithered taps (O6), and a good arrival as a whole (O5, O9). -/

namespace Sys2Proof.Machine
open Sys2Proof.Safety

/-! ### The dither modulator (R45, R46) -/

theorem allPass_length (a : Int) (lastIn lastOut : Sample) (x : Slot) : (allPass a lastIn lastOut x).length = x.length := by
  induction x generalizing lastIn lastOut with
  | nil => rfl
  | cons b rest ih => exact congrArg (· + 1) (ih _ _)

/-- Sample `n` of the all-pass section, from the input and the output before it (R45). -/
theorem allPass_getD (a : Int) (lastIn lastOut : Sample) (x : Slot) (n : Nat) (h : n < x.length) :
    (allPass a lastIn lastOut x).getD n 0 =
      limit24 (roundDiv (a * (x.getD n 0).toInt + (if n = 0 then lastIn else x.getD (n - 1) 0).toInt * 8388608 -
        a * (if n = 0 then lastOut else (allPass a lastIn lastOut x).getD (n - 1) 0).toInt) 8388608) := by
  induction x generalizing lastIn lastOut n with
  | nil => exact absurd h (Nat.not_lt_zero n)
  | cons b rest ih =>
    cases n with
    | zero => rfl
    | succ m =>
      refine (ih b _ m (Nat.lt_of_succ_lt_succ h)).trans ?_
      cases m <;> rfl

/-! ### One reference's block (R40 to R47) -/

/-- The activity test against the threshold, as a comparison of whole numbers (R47). -/
theorem Reference.tested_reaches (ref : Reference) (b : Slot) :
    ref.tested (reachesThreshold b ref.threshold) =
      if fullSine ^ 20 * 10 ^ ref.threshold.toNat ≤ squareSum b ^ 20 * 10 ^ (-ref.threshold).toNat then
        { ref with active := true, hangoverCount := ref.hangover }
      else if 0 < ref.hangoverCount then { ref with hangoverCount := ref.hangoverCount - 1 }
      else { ref with active := false } := by
  unfold Reference.tested reachesThreshold ratioAtLeast
  simp only [decide_eq_true_eq]

theorem squareSum_silence : squareSum silence = 0 := by decide

/-- Silence reaches no threshold (R42, R47). -/
theorem reachesThreshold_silence (threshold : Int) : reachesThreshold silence threshold = false := by
  have positive : 0 < fullSine ^ 20 * 10 ^ threshold.toNat := Nat.mul_pos (Nat.pow_pos (by decide)) (Nat.pow_pos (by decide))
  unfold reachesThreshold ratioAtLeast
  rw [squareSum_silence, Nat.zero_pow (by decide), Nat.zero_mul]
  exact decide_eq_false (Nat.not_le.mpr positive)

theorem State.appendTo_eq (s : State) (r : Nat) (b : Slot) :
    s.appendTo r b = { s with
      histories := s.histories.set r ((b :: s.history r).take 512)
      references := s.references.set r ((s.reference r).tested (reachesThreshold b (s.reference r).threshold)) } := rfl

theorem State.appendUntrusted_eq (s : State) (r : Nat) :
    s.appendUntrusted r =
      let v := s.raise .tableParity (.reference r) none
      { v with
        modulators := v.modulators.set r { v.modulator r with lastIn := 0, lastOut := 0 }
        histories := s.histories.set r ((silence :: s.history r).take 512)
        references := s.references.set r ((s.reference r).tested (reachesThreshold silence (s.reference r).threshold)) } := by
  have told := s.raise_reports .tableParity (.reference r) none
  rw [State.appendUntrusted, State.appendTo_eq]
  simp only [State.reference_putModulator, State.history_putModulator, told.reference]
  unfold State.history
  rw [← told.histories, ← told.references]
  rfl

section
variable (op : OpState) (slots : List Slot) (s : State) (r : Nat)

theorem State.tapReference_untrusted (h : (s.reference r).parityBad = true) :
    State.tapReference op (slots, s) r = (slots, s.appendUntrusted r) := if_pos h

theorem State.tapReference_unbound (h : (s.reference r).parityBad = false) (slot : (s.reference r).slot = none) :
    State.tapReference op (slots, s) r = (slots, s.appendTo r silence) := by
  unfold State.tapReference
  simp only [h, slot, Bool.false_eq_true, if_false]

theorem State.tapReference_plain (k : Nat) (h : (s.reference r).parityBad = false) (slot : (s.reference r).slot = some k)
    (plain : (s.reference r).dithered op = false) :
    State.tapReference op (slots, s) r = (slots, s.appendTo r (slots.getD k silence)) := by
  unfold State.tapReference
  simp only [h, slot, plain, Bool.false_eq_true, if_false]

theorem State.tapReference_dithered (k : Nat) (h : (s.reference r).parityBad = false) (slot : (s.reference r).slot = some k)
    (dithered : (s.reference r).dithered op = true) :
    State.tapReference op (slots, s) r =
      let y := (s.modulator r).apply (s.reference r).depth (slots.getD k silence)
      (slots.set k y.1, (s.putModulator r y.2).appendTo r y.1) := by
  unfold State.tapReference
  simp only [h, slot, dithered, Bool.false_eq_true, if_false, if_true]

end

theorem OpState.dithers_iff (op : OpState) : op.dithers = true ↔ op = .run ∨ op = .safe := by cases op <;> simp [OpState.dithers]

theorem Reference.dithered_iff (ref : Reference) (op : OpState) :
    ref.dithered op = true ↔ (op = .run ∨ op = .safe) ∧ ref.slot ≠ none ∧ ref.depth ≠ 0 := by
  simp [Reference.dithered, op.dithers_iff, Option.isSome_iff_ne_none, and_assoc]

/-- Settles O7: the section sample by sample, the modulator's block, and a tap by the four readings of a record. -/
theorem ditherModulator : Obligations.DitherModulator := by
  refine ⟨fun a lastIn lastOut x => ⟨allPass_length a lastIn lastOut x, fun n hn => allPass_getD a lastIn lastOut x n hn⟩,
    fun m depth x => ⟨rfl, rfl⟩, fun s op slots r hr sized => ?_⟩
  intro ref tested
  have test : ∀ b, ref.tested (reachesThreshold b ref.threshold) = tested b := ref.tested_reaches
  refine ⟨fun k working trusted slot deep => ?_, fun k idle trusted slot => ?_, fun trusted slot => ?_, fun bad => ?_⟩
  · have dithered : ref.dithered op = true := (ref.dithered_iff op).mpr ⟨working, by rw [slot]; exact Option.some_ne_none k, deep⟩
    intro y
    rw [s.tapReference_dithered op slots r k trusted slot dithered, ← test]
    rfl
  · have plain : ref.dithered op = false := Bool.eq_false_iff.mpr fun h => by
      obtain ⟨working, -, deep⟩ := (ref.dithered_iff op).mp h
      rcases idle with rfl | rfl | shallow
      · exact absurd working (by decide)
      · exact absurd working (by decide)
      · exact deep shallow
    rw [s.tapReference_plain op slots r k trusted slot plain, ← test]
    rfl
  · rw [s.tapReference_unbound op slots r trusted slot, ← test]
    rfl
  · rw [s.tapReference_untrusted op slots r bad, s.appendUntrusted_eq, ← test]

end Sys2Proof.Machine
end


section
/-! The whole of a good arrival (O5, O9) and the taps without dither (O6). -/

namespace Sys2Proof.Machine
open Sys2Proof.Safety

/-! ### What the outbound side touches -/

/-- From `s` to `t` the outbound side has done its work: it touches the ports, the references' records and histories, the modulators, the
fault unit and the notices. -/
structure Outward (s t : State) : Prop where
  channels : t.channels = s.channels
  paths : t.paths = s.paths
  pool : t.pool = s.pool
  comparator : t.comparator = s.comparator
  seed : t.seed = s.seed
  decision : t.decision = s.decision
  pending : t.pending = s.pending
  control : t.control = { s.control with notices := t.control.notices }

theorem Outward.refl (s : State) : Outward s s := ⟨rfl, rfl, rfl, rfl, rfl, rfl, rfl, rfl⟩

theorem Outward.trans {s t u : State} (h : Outward s t) (k : Outward t u) : Outward s u where
  channels := k.channels.trans h.channels
  paths := k.paths.trans h.paths
  pool := k.pool.trans h.pool
  comparator := k.comparator.trans h.comparator
  seed := k.seed.trans h.seed
  decision := k.decision.trans h.decision
  pending := k.pending.trans h.pending
  control := k.control.trans (by rw [h.control])

theorem Control.eq_of_fields {x y : Control} (replies : x.replies = y.replies) (forward : x.forward = y.forward)
    (streamer : x.streamer = y.streamer) (winner : x.winner = y.winner) (fault : x.enableFault = y.enableFault)
    (state : x.enableState = y.enableState) (path : x.enablePath = y.enablePath) : x = { y with notices := x.notices } := by
  cases x
  cases y
  simp_all

theorem Reports.outward {s t : State} (h : Reports s t) : Outward s t where
  channels := h.channels
  paths := h.paths
  pool := h.pool
  comparator := h.comparator
  seed := h.seed
  decision := h.decision
  pending := h.pending
  control := Control.eq_of_fields h.replies h.forward h.streamer h.winner h.enableFault h.enableState h.enablePath

theorem State.setPorts_outward (s : State) (p : Ports) : Outward s (s.setPorts p) := ⟨rfl, rfl, rfl, rfl, rfl, rfl, rfl, rfl⟩

/-- From `s` to `t` a header has been judged: of the ports it touches the lock's four fields (R139), and no record of a reference. -/
structure Sighted (s t : State) : Prop extends Outward s t where
  references : t.references = s.references
  histories : t.histories = s.histories
  ports : t.ports =
    { s.ports with lock := t.ports.lock, acquire := t.ports.acquire, loss := t.ports.loss, armed := t.ports.armed }

theorem State.setPorts_sighted (s : State) (lock : LockState) (acquire loss : Nat) (armed : Bool) :
    Sighted s (s.setPorts { s.ports with lock := lock, acquire := acquire, loss := loss, armed := armed }) :=
  ⟨s.setPorts_outward _, rfl, rfl, rfl⟩

theorem Sighted.reports {s t u : State} (h : Sighted s t) (k : Reports t u) : Sighted s u where
  toOutward := h.toOutward.trans k.outward
  references := k.references.trans h.references
  histories := k.histories.trans h.histories
  ports := by rw [k.ports]; exact h.ports

theorem State.lockSees_sighted (s : State) (x : LockSight) : Sighted s (s.lockSees x) := by
  have put := s.setPorts_sighted
  have reached : Sighted s s.lockReached := by
    unfold State.lockReached
    dsimp only
    split
    · exact (put .locked 16 0 true).reports (State.leaveOffline_reports _)
    · exact put .locked 16 0 true
  have rises : Sighted s s.lossRises := by
    unfold State.lossRises State.lockLost
    split
    · dsimp only
      split
      · exact (put .unlocked 0 0 s.ports.armed).reports (State.raise_reports _ _ _ _)
      · exact put .unlocked 0 0 s.ports.armed
    · exact put s.ports.lock s.ports.acquire _ s.ports.armed
  unfold State.lockSees
  split
  · exact put .acquiring 1 s.ports.loss s.ports.armed
  · exact put .acquiring 1 s.ports.loss s.ports.armed
  · exact put s.ports.lock s.ports.acquire s.ports.loss s.ports.armed
  · unfold State.acquisitionRises
    split
    · exact reached
    · exact put s.ports.lock _ s.ports.loss s.ports.armed
  · exact put .unlocked 0 s.ports.loss s.ports.armed
  · exact put .unlocked 0 s.ports.loss s.ports.armed
  · exact put s.ports.lock s.ports.acquire 0 s.ports.armed
  · exact rises
  · exact rises

/-- From `s` to `t` references have been tapped: the ports are as they were. -/
structure Tapped (s t : State) : Prop extends Outward s t where
  ports : t.ports = s.ports

theorem Tapped.refl (s : State) : Tapped s s := ⟨.refl s, rfl⟩

theorem Tapped.trans {s t u : State} (h : Tapped s t) (k : Tapped t u) : Tapped s u := ⟨h.toOutward.trans k.toOutward, k.ports.trans h.ports⟩

theorem Reports.tapped {s t : State} (h : Reports s t) : Tapped s t := ⟨h.outward, h.ports⟩

theorem State.appendTo_tapped (s : State) (r : Nat) (b : Slot) : Tapped s (s.appendTo r b) := ⟨⟨rfl, rfl, rfl, rfl, rfl, rfl, rfl, rfl⟩, rfl⟩

theorem State.putModulator_tapped (s : State) (r : Nat) (m : Modulator) : Tapped s (s.putModulator r m) :=
  ⟨⟨rfl, rfl, rfl, rfl, rfl, rfl, rfl, rfl⟩, rfl⟩

theorem State.appendUntrusted_tapped (s : State) (r : Nat) : Tapped s (s.appendUntrusted r) :=
  ((State.raise_reports _ _ _ _).tapped.trans (State.putModulator_tapped _ r _)).trans (State.appendTo_tapped _ r _)

theorem State.tapReference_tapped (op : OpState) (acc : List Slot × State) (r : Nat) : Tapped acc.2 (State.tapReference op acc r).2 := by
  unfold State.tapReference
  dsimp only
  split
  · exact State.appendUntrusted_tapped _ r
  · split
    · exact State.appendTo_tapped _ r _
    · split
      · exact (State.putModulator_tapped _ r _).trans (State.appendTo_tapped _ r _)
      · exact State.appendTo_tapped _ r _

theorem State.foldl_tapReference_tapped (op : OpState) (l : List Nat) (acc : List Slot × State) :
    Tapped acc.2 (l.foldl (State.tapReference op) acc).2 := by
  induction l generalizing acc with
  | nil => exact .refl _
  | cons r rest ih => exact (State.tapReference_tapped op acc r).trans (ih _)

theorem State.tapAll_tapped (s : State) (slots : List Slot) : Tapped s (s.tapAll slots).2 := State.foldl_tapReference_tapped _ _ (slots, s)

/-! ### Good arrivals (R129, R132) -/

/-- The tapping as the statements name it. -/
theorem State.tapAll_judgeHeader (s : State) (seq : Byte) (slots : List Slot) : (s.judgeHeader seq).tapAll slots = blockTapped s seq slots := rfl

/-- The raise for a bad packet, where there is one (R132). -/
def State.examined (s : State) (bad : Bool) : State := if bad then s.raise .packetError (.port .core) none else s

theorem State.examined_false (s : State) : s.examined false = s := rfl

theorem State.examined_true (s : State) : s.examined true = s.raise .packetError (.port .core) none := rfl

theorem State.examined_reports (s : State) (bad : Bool) : Reports s (s.examined bad) := by
  unfold State.examined
  split
  · exact s.raise_reports _ _ _
  · exact .refl s

theorem headerJudged_outward (s : State) (seq : Byte) : Outward s (headerJudged s seq) :=
  (s.lockSees_sighted _).toOutward.trans (State.setPorts_outward _ _)

theorem blockTapped_tapped (s : State) (seq : Byte) (slots : List Slot) : Tapped (headerJudged s seq) (blockTapped s seq slots).2 :=
  (headerJudged s seq).tapAll_tapped slots

theorem blockTapped_examined_outward (s : State) (seq : Byte) (slots : List Slot) (bad : Bool) :
    Outward s ((blockTapped s seq slots).2.examined bad) :=
  ((headerJudged_outward s seq).trans (blockTapped_tapped s seq slots).toOutward).trans (State.examined_reports _ bad).outward

theorem State.eq_of_fields {s t : State} (ports : s.ports = t.ports) (modulators : s.modulators = t.modulators)
    (references : s.references = t.references) (histories : s.histories = t.histories) (channels : s.channels = t.channels)
    (paths : s.paths = t.paths) (pool : s.pool = t.pool) (comparator : s.comparator = t.comparator) (seed : s.seed = t.seed)
    (decision : s.decision = t.decision) (control : s.control = t.control) (unit : s.unit = t.unit) (pending : s.pending = t.pending) :
    s = t := by
  cases s
  cases t
  simp_all

/-- A good block handled, its command apart: the record that the statements write out (R129). -/
theorem State.sendRoom_examined_eq (s : State) (seq flags : Byte) (slots : List Slot) (window : List Byte) :
    ((blockTapped s seq slots).2.examined (examine flags window).bad).sendRoom
        { seq := seq, filler := flags.getLsbD 7, slots := (blockTapped s seq slots).1, packet := (examine flags window).passed } =
      arrivalHandled s seq flags slots window := by
  have told := State.examined_reports (blockTapped s seq slots).2 (examine flags window).bad
  have outward := blockTapped_examined_outward s seq slots (examine flags window).bad
  have ports := told.ports.trans (blockTapped_tapped s seq slots).ports
  have judged : (headerJudged s seq).ports = { s.ports with
      lock := (s.lockSees (if seq = s.ports.lastSeq + 1 then .inSequence else .gap)).ports.lock
      acquire := (s.lockSees (if seq = s.ports.lastSeq + 1 then .inSequence else .gap)).ports.acquire
      loss := (s.lockSees (if seq = s.ports.lastSeq + 1 then .inSequence else .gap)).ports.loss
      armed := (s.lockSees (if seq = s.ports.lastSeq + 1 then .inSequence else .gap)).ports.armed
      lastSeq := seq, coreSilence := 0, timerRunning := true } := by
    unfold headerJudged
    dsimp only
    rw [(s.lockSees_sighted _).ports]
  unfold arrivalHandled
  dsimp only
  rw [← State.examined]
  rw [judged] at ports
  generalize blockTapped s seq slots = tapped at told outward ports ⊢
  generalize tapped.2.examined (examine flags window).bad = v at told outward ports ⊢
  refine State.eq_of_fields ?_ rfl told.references told.histories outward.channels outward.paths outward.pool outward.comparator
    outward.seed outward.decision rfl rfl outward.pending
  rw [State.sendRoom, State.setPorts_ports, ports]

section
variable (s : State) (seq flags : Byte) (slots : List Slot) (window : List Byte)

theorem arrivalHandled_unit :
    (arrivalHandled s seq flags slots window).unit = ((blockTapped s seq slots).2.examined (examine flags window).bad).unit := by
  rw [← State.sendRoom_examined_eq, State.sendRoom, State.setPorts_unit]

theorem arrivalHandled_notices :
    (arrivalHandled s seq flags slots window).control = ((blockTapped s seq slots).2.examined (examine flags window).bad).control := by
  rw [← State.sendRoom_examined_eq, State.sendRoom, State.setPorts_control]

theorem arrivalHandled_modulators :
    (arrivalHandled s seq flags slots window).modulators = ((blockTapped s seq slots).2.examined (examine flags window).bad).modulators := by
  rw [← State.sendRoom_examined_eq, State.sendRoom, State.setPorts_modulators]

theorem arrivalHandled_references : (arrivalHandled s seq flags slots window).references = (blockTapped s seq slots).2.references := by
  rw [arrivalHandled]

theorem arrivalHandled_histories : (arrivalHandled s seq flags slots window).histories = (blockTapped s seq slots).2.histories := by
  rw [arrivalHandled]

theorem arrivalHandled_roomTx :
    (arrivalHandled s seq flags slots window).ports.roomTx =
      some { seq := seq, filler := flags.getLsbD 7, slots := (blockTapped s seq slots).1, packet := (examine flags window).passed } := by
  rw [← State.sendRoom_examined_eq, State.sendRoom, State.setPorts_ports]

theorem arrivalHandled_control :
    (arrivalHandled s seq flags slots window).control =
      { s.control with notices := (arrivalHandled s seq flags slots window).control.notices } := by
  rw [arrivalHandled_notices]
  exact (blockTapped_examined_outward s seq slots (examine flags window).bad).control

end

theorem State.takeConsumed_none (s : State) : s.takeConsumed none = s := rfl

theorem State.takeConsumed_some (s : State) (c : CommandPacket) : s.takeConsumed (some c) = s.takeCommand c.code c.tag c.payload := rfl

/-- A good arrival's row: the block handled in its opened period, and a consumed command taken after it (R129, R132). -/
theorem exec_outboundGoodArrival (s : State) (seq flags : Byte) (slots : List Slot) (window : List Byte) (stepFirst : Bool)
    (running : s.ports.pinHeld = false) :
    exec (.outboundGoodArrival seq flags slots window stepFirst) s =
      .next ((arrivalHandled (periodOpened s stepFirst) seq flags slots window).takeConsumed (examine flags window).consumed) := by
  have row : exec (.outboundGoodArrival seq flags slots window stepFirst) s =
      .next (s.whilePortsRun (State.outboundGood seq flags slots window stepFirst)) := rfl
  rw [row, s.whilePortsRun_run _ running, ← State.sendRoom_examined_eq, ← s.openPeriod_eq]
  rfl

/-- A good block's slots are those that arrived wherever no reference names them (R41). -/
theorem blockTapped_elsewhere (s : State) (seq : Byte) (slots : List Slot) :
    SameElsewhere (fun k => ∃ r < 8, (s.reference r).slot = some k) slots (blockTapped s seq slots).1 := by
  have same : ∀ r, (headerJudged s seq).reference r = s.reference r := fun r => by
    show ((s.lockSees _).references.getD r _) = _
    rw [(s.lockSees_sighted _).references]
    rfl
  obtain ⟨length, kept⟩ := ((headerJudged s seq).tapAll_spec slots).2
  exact ⟨length, fun k unnamed => kept k fun ⟨r, hr, slot⟩ => unnamed ⟨r, hr, same r ▸ slot⟩⟩

/-- Settles O5: the arrival's row, and what the raise for a bad packet adds to the taps. -/
theorem goodArrivalPassesBlock : Obligations.GoodArrivalPassesBlock := by
  intro s seq flags slots window stepFirst running nothing opened t tapped
  refine ⟨rfl, ?_, blockTapped_elsewhere opened seq slots, fun good => ?_, fun bad => ?_, arrivalHandled_control opened seq flags slots window⟩
  · rw [exec_outboundGoodArrival s seq flags slots window stepFirst running, nothing, State.takeConsumed_none]
  · have told := (congrArg tapped.2.examined good).trans tapped.2.examined_false
    exact ⟨(arrivalHandled_unit opened seq flags slots window).trans (congrArg State.unit told),
      (arrivalHandled_notices opened seq flags slots window).trans (congrArg State.control told),
      (arrivalHandled_modulators opened seq flags slots window).trans (congrArg State.modulators told)⟩
  · have told := (congrArg tapped.2.examined bad).trans tapped.2.examined_true
    have unit := (arrivalHandled_unit opened seq flags slots window).trans (congrArg State.unit told)
    exact ⟨unit, (arrivalHandled_notices opened seq flags slots window).trans (congrArg State.control told),
      (arrivalHandled_modulators opened seq flags slots window).trans (congrArg State.modulators told), unit ▸ tapped.2.raise_isSet _ _ _⟩

/-! ### Command packets (R132) -/

/-- A good COMMAND packet's distance is one the row handles (R132). -/
theorem readCommand_distance {window : List Byte} {c : CommandPacket} (h : readCommand window = some c) :
    c.distance ≤ 7 ∨ c.distance = 15 := by
  unfold readCommand at h
  dsimp only at h
  split at h
  · next intact =>
    obtain rfl := Option.some.inj h
    have hop := (Bool.and_eq_true_iff.mp intact).2
    simpa using hop
  · exact absurd h (by simp)

section
variable {flags : Byte} {window : List Byte} {c : CommandPacket} (present : flags.getLsbD 6 = true) (read : readCommand window = some c)
include present read

theorem examine_consumed (h : c.distance = 0) : examine flags window = { passed := none, consumed := some c, bad := false } := by
  simp [examine, presentFlag, present, read, h]

theorem examine_passed (low : 1 ≤ c.distance) (high : c.distance ≤ 7) :
    examine flags window = { passed := some c.lowered, consumed := none, bad := false } := by
  have h0 : c.distance ≠ 0 := by omega
  have h15 : c.distance ≠ 15 := by omega
  simp [examine, presentFlag, present, read, h0, h15]

theorem examine_broadcast (h : c.distance = 15) : examine flags window = { passed := some c.packet, consumed := some c, bad := false } := by
  simp [examine, presentFlag, present, read, h]

end

/-- A window that has a command for this part holds a good packet. -/
theorem examine_consumed_good {flags : Byte} {window : List Byte} {c : CommandPacket} (h : (examine flags window).consumed = some c) :
    (examine flags window).bad = false := by
  unfold examine at h ⊢
  cases flags : presentFlag flags with
  | false => simp [flags] at h
  | true =>
    cases read : readCommand window with
    | none => simp [flags, read] at h
    | some d =>
      simp only [if_true]
      split
      · rfl
      · split <;> rfl

/-- Settles O9: the examination by the distance, and the row of an arrival whose command is taken. -/
theorem commandPacketsHandled : Obligations.CommandPacketsHandled := by
  refine ⟨fun flags window => ⟨fun absent => ?_, fun present bad => ?_, fun c present read => ?_⟩,
    fun s seq flags slots window stepFirst c running consumed => ?_⟩
  · exact if_neg (Bool.eq_false_iff.mp absent)
  · simp [examine, presentFlag, present, bad]
  · have distance := readCommand_distance read
    exact ⟨by omega, examine_consumed present read, examine_passed present read, examine_broadcast present read⟩
  · intro opened handled
    refine ⟨?_, examine_consumed_good consumed, blockTapped_elsewhere opened seq slots, arrivalHandled_control opened seq flags slots window⟩
    rw [exec_outboundGoodArrival s seq flags slots window stepFirst running, consumed, State.takeConsumed_some]

end Sys2Proof.Machine
end


section
/-! Where the operating state stands still, and what a fold over the references leaves of each of them (O6). -/

namespace Sys2Proof.Machine
open Sys2Proof.Safety

/-! ### The operating state under a raise (R162, R166) -/

@[simp] theorem State.noteRaise_opState (s : State) (c : FaultClass) (x : Subject) (t : Option Byte) :
    (s.noteRaise c x t).unit.opState = s.unit.opState := by
  unfold State.noteRaise
  split <;> rfl

@[simp] theorem State.noteRaise_control (s : State) (c : FaultClass) (x : Subject) (t : Option Byte) :
    (s.noteRaise c x t).control = s.control := by
  unfold State.noteRaise
  split <;> rfl

@[simp] theorem State.setStatus_opState (s : State) (c : FaultClass) : (s.setStatus c).unit.opState = s.unit.opState := rfl

@[simp] theorem State.setStatus_control (s : State) (c : FaultClass) : (s.setStatus c).control = s.control := rfl

/-- A notice's discard enters SAFE from a working state only. -/
theorem State.postNotice_opState (s : State) (n : Notice) (t : Option Byte)
    (h : s.unit.opState.working = false ∨ s.control.notices.length < 8) : (s.postNotice n t).unit.opState = s.unit.opState := by
  unfold State.postNotice
  split
  · rfl
  · next full =>
    have resting := h.resolve_right full
    unfold State.raiseOverflow
    dsimp only
    rw [resting, Bool.and_false]
    split
    · rfl
    · split
      · exact s.noteRaise_opState _ _ _
      · exact State.noteRaise_opState _ _ _ _

/-- Outside RUN and BYPASS, and where the class is masked, stands already, or is not grave and finds room for its notice, a raise leaves the
operating state (R166). -/
theorem State.raise_opState (s : State) (c : FaultClass) (x : Subject) (t : Option Byte)
    (h : s.unit.opState.working = false ∨ s.unit.masked c = true ∨ s.unit.isSet c = true ∨
      s.unit.grave c = false ∧ s.control.notices.length < 8) : (s.raise c x t).unit.opState = s.unit.opState := by
  unfold State.raise
  dsimp only
  split
  · rfl
  · next unmasked =>
    split
    · exact s.noteRaise_opState _ _ _
    · next clear =>
      have quiet : s.unit.opState.working = false ∨ s.unit.grave c = false ∧ s.control.notices.length < 8 := by
        rcases h with resting | masked | set | quiet
        · exact .inl resting
        · exact absurd masked unmasked
        · exact absurd set clear
        · exact .inr quiet
      have noted : ((s.setStatus c).noteRaise c x t).unit.opState = s.unit.opState := State.noteRaise_opState _ _ _ _
      have posted : (if ((s.setStatus c).noteRaise c x t).control.enableFault = true then
          ((s.setStatus c).noteRaise c x t).postNotice (.fault c x) t else (s.setStatus c).noteRaise c x t).unit.opState = s.unit.opState := by
        split
        · refine (State.postNotice_opState _ _ _ ?_).trans noted
          rw [noted, State.noteRaise_control, State.setStatus_control]
          exact quiet.imp_right And.right
        · exact noted
      rw [posted, if_neg, posted]
      rcases quiet with resting | ⟨mild, -⟩
      · rw [resting, Bool.and_false]
        decide
      · rw [mild, Bool.false_and]
        decide

/-- The lock changes the operating state in two transitions alone: where it is reached in OFFLINE, and where its loss is raised (R139, R140, R162). -/
theorem State.lockSees_opState (s : State) (x : LockSight)
    (reached : s.unit.opState = .offline → ¬(s.ports.lock = .acquiring ∧ x = .inSequence ∧ 16 ≤ s.ports.acquire + 1))
    (lost : s.ports.lock = .locked → x ≠ .inSequence → 3 ≤ s.ports.loss + 1 → s.ports.armed = true →
      ∀ p, ((s.setPorts p).raise .clockUnlock (.port .core) none).unit.opState = s.unit.opState) :
    (s.lockSees x).unit.opState = s.unit.opState := by
  have rises : s.ports.lock = .locked → x ≠ .inSequence → s.lossRises.unit.opState = s.unit.opState := fun locked bad => by
    unfold State.lossRises State.lockLost
    split
    · next limit =>
      dsimp only
      split
      · next armed => exact lost locked bad limit armed _
      · rfl
    · rfl
  unfold State.lockSees
  split
  case h_4 acquiring =>
    unfold State.acquisitionRises State.lockReached
    split
    · next limit =>
      dsimp only
      rw [if_neg fun offline => reached offline ⟨acquiring, rfl, limit⟩]
      rfl
    · rfl
  case h_8 locked => exact rises locked (by decide)
  case h_9 locked => exact rises locked (by decide)
  all_goals rfl

/-! ### Folds over the references -/

/-- From `s` to `t` one reference at most has a new record or a new history. -/
structure OnlyReference (r : Nat) (s t : State) : Prop where
  history : ∀ k, k ≠ r → t.history k = s.history k
  reference : ∀ k, k ≠ r → t.reference k = s.reference k
  histories : t.histories.length = s.histories.length
  references : t.references.length = s.references.length

theorem State.appendTo_only (s : State) (r : Nat) (b : Slot) : OnlyReference r s (s.appendTo r b) where
  history k hk := State.history_putHistory_ne s r k _ hk.symm
  reference k hk := State.reference_putReference_ne (s.putHistory r _) r k _ hk.symm
  histories := List.length_set
  references := List.length_set

theorem State.appendUntrusted_only (s : State) (r : Nat) : OnlyReference r s (s.appendUntrusted r) := by
  have told := s.raise_reports .tableParity (.reference r) none
  have only := ((s.raise .tableParity (.reference r) none).putModulator r
    ((s.raise .tableParity (.reference r) none).modulator r).cleared).appendTo_only r silence
  have history : ∀ k, (s.raise .tableParity (.reference r) none).history k = s.history k := fun k => by
    unfold State.history
    rw [told.histories]
  exact ⟨fun k hk => (only.history k hk).trans (history k), fun k hk => (only.reference k hk).trans (told.reference k),
    only.histories.trans (congrArg List.length told.histories), only.references.trans (congrArg List.length told.references)⟩

/-- What a fold over references makes of one of them its own step makes of it, on a state that has it as the first one does. -/
theorem foldl_onlyReference {f : State → Nat → State} (only : ∀ s k, OnlyReference k s (f s k)) (s : State) {r : Nat} {l : List Nat}
    (nodup : l.Nodup) (hr : r ∈ l) :
    ∃ v, v.history r = s.history r ∧ v.reference r = s.reference r ∧ v.histories.length = s.histories.length ∧
      v.references.length = s.references.length ∧ (l.foldl f s).history r = (f v r).history r ∧
      (l.foldl f s).reference r = (f v r).reference r := by
  have rest : ∀ (l : List Nat) (v : State), r ∉ l → (l.foldl f v).history r = v.history r ∧ (l.foldl f v).reference r = v.reference r := by
    intro l
    induction l with
    | nil => exact fun v _ => ⟨rfl, rfl⟩
    | cons k l ih =>
      intro v hk
      obtain ⟨ne, notin⟩ : r ≠ k ∧ r ∉ l := by simpa using hk
      obtain ⟨history, reference⟩ := ih (f v k) notin
      exact ⟨history.trans ((only v k).history r ne), reference.trans ((only v k).reference r ne)⟩
  induction l generalizing s with
  | nil => exact absurd hr List.not_mem_nil
  | cons k l ih =>
    obtain ⟨notin, nodup⟩ := List.nodup_cons.mp nodup
    by_cases e : r = k
    · subst e
      obtain ⟨history, reference⟩ := rest l (f s r) notin
      exact ⟨s, rfl, rfl, rfl, rfl, history, reference⟩
    · obtain ⟨v, history, reference, histories, references, step⟩ := ih (f s k) nodup (List.mem_of_ne_of_mem e hr)
      exact ⟨v, history.trans ((only s k).history r e), reference.trans ((only s k).reference r e),
        histories.trans (only s k).histories, references.trans (only s k).references, step⟩

/-- The block a reference taps without dither (R41, R42). -/
def Reference.tappedBlock (ref : Reference) (slots : List Slot) : Slot :=
  match ref.slot with
  | some k => slots.getD k silence
  | none => silence

/-- One reference's part of a block in a state without dither: an append alone (R41, R45). -/
def State.tapPlain (slots : List Slot) (s : State) (r : Nat) : State :=
  if (s.reference r).parityBad then s.appendUntrusted r else s.appendTo r ((s.reference r).tappedBlock slots)

theorem State.tapReference_tapPlain {op : OpState} (idle : op.dithers = false) (slots : List Slot) (s : State) (r : Nat) :
    State.tapReference op (slots, s) r = (slots, s.tapPlain slots r) := by
  unfold State.tapPlain Reference.tappedBlock
  cases trusted : (s.reference r).parityBad with
  | true => exact s.tapReference_untrusted op slots r trusted
  | false =>
    cases slot : (s.reference r).slot with
    | none => exact s.tapReference_unbound op slots r trusted slot
    | some k => exact s.tapReference_plain op slots r k trusted slot (by simp [Reference.dithered, idle])

theorem State.foldl_tapPlain {op : OpState} (idle : op.dithers = false) (slots : List Slot) (s : State) (l : List Nat) :
    l.foldl (State.tapReference op) (slots, s) = (slots, l.foldl (State.tapPlain slots) s) := by
  induction l generalizing s with
  | nil => rfl
  | cons r rest ih => rw [List.foldl_cons, State.tapReference_tapPlain idle, ih, List.foldl_cons]

theorem State.tapPlain_only (slots : List Slot) (s : State) (r : Nat) : OnlyReference r s (s.tapPlain slots r) := by
  unfold State.tapPlain
  split
  · exact s.appendUntrusted_only r
  · exact s.appendTo_only r _

theorem State.history_appendTo (s : State) (r : Nat) (b : Slot) (h : r < s.histories.length) :
    (s.appendTo r b).history r = (b :: s.history r).take 512 := s.history_putHistory_self r _ h

theorem State.reference_appendTo (s : State) (r : Nat) (b : Slot) (h : r < s.references.length) :
    (s.appendTo r b).reference r = (s.reference r).tested (reachesThreshold b (s.reference r).threshold) :=
  State.reference_putReference_self (s.putHistory r _) r _ h

/-- A trusted reference after the taps of a block in a state without dither. -/
theorem State.foldl_tapPlain_at (slots : List Slot) (s : State) {r : Nat} {l : List Nat} (nodup : l.Nodup) (hr : r ∈ l)
    (histories : r < s.histories.length) (references : r < s.references.length) (trusted : (s.reference r).parityBad = false) :
    (l.foldl (State.tapPlain slots) s).history r = ((s.reference r).tappedBlock slots :: s.history r).take 512 ∧
      (l.foldl (State.tapPlain slots) s).reference r =
        (s.reference r).tested (reachesThreshold ((s.reference r).tappedBlock slots) (s.reference r).threshold) := by
  obtain ⟨v, history, reference, lengthH, lengthR, foldH, foldR⟩ := foldl_onlyReference (State.tapPlain_only slots) s nodup hr
  have step : v.tapPlain slots r = v.appendTo r ((s.reference r).tappedBlock slots) := by
    unfold State.tapPlain
    rw [reference, if_neg (Bool.eq_false_iff.mp trusted)]
  rw [foldH, foldR, step, v.history_appendTo r _ (lengthH ▸ histories), v.reference_appendTo r _ (lengthR ▸ references), history, reference]
  exact ⟨rfl, rfl⟩

theorem idle_of_offline_or_bypass {op : OpState} (h : op = .offline ∨ op = .bypass) : op.dithers = false := by
  rcases h with rfl | rfl <;> rfl

/-- Settles O6: a fold of plain appends, and the lock's transitions that keep the operating state. -/
theorem unditheredArrivalTapsExactly : Obligations.UnditheredArrivalTapsExactly := by
  refine ⟨fun v seq flags slots window stepFirst => ?_, fun s sight => ⟨fun offline early => ?_, fun bypass mild => ?_⟩⟩
  · intro s running nothing sized judged idle
    have sighted : Sighted s judged := s.lockSees_sighted _
    have plain : blockTapped s seq slots = (slots, (List.range 8).foldl (State.tapPlain slots) (headerJudged s seq)) :=
      State.foldl_tapPlain (idle_of_offline_or_bypass idle) slots _ _
    refine ⟨arrivalHandled s seq flags slots window, ?_, ?_, fun r hr trusted => ?_⟩
    · rw [exec_outboundGoodArrival v seq flags slots window stepFirst running, nothing, State.takeConsumed_none]
    · rw [arrivalHandled_roomTx, plain]
    · intro b
      have reference : (headerJudged s seq).reference r = s.reference r := congrArg (fun l => l.getD r Reference.initial) sighted.references
      have history : (headerJudged s seq).history r = s.history r := congrArg (fun l => l.getD r silentHistory) sighted.histories
      have sizedR : r < (headerJudged s seq).references.length := (congrArg List.length sighted.references).trans sized.2.1 ▸ hr
      have sizedH : r < (headerJudged s seq).histories.length := (congrArg List.length sighted.histories).trans sized.2.2.1 ▸ hr
      obtain ⟨after, test⟩ := (headerJudged s seq).foldl_tapPlain_at slots List.nodup_range (List.mem_range.mpr hr) sizedH sizedR
        (reference ▸ trusted)
      rw [reference, history] at after
      rw [reference, Reference.tested_reaches] at test
      unfold State.history State.reference
      rw [arrivalHandled_references, arrivalHandled_histories, plain]
      exact ⟨after, test⟩
  · refine (s.lockSees_opState sight (fun _ => early) fun _ _ _ _ p => ?_).trans offline
    exact State.raise_opState (s.setPorts p) _ _ _ (.inl (congrArg OpState.working offline))
  · refine (s.lockSees_opState sight (fun offline => absurd (bypass.symm.trans offline) (by decide)) fun locked bad limit armed p => ?_).trans bypass
    refine State.raise_opState (s.setPorts p) _ _ _ (.inr ?_)
    rcases mild with unlocked | sequence | below | unarmed | quiet
    · exact absurd locked unlocked
    · exact absurd sequence bad
    · omega
    · exact absurd armed (Bool.eq_false_iff.mp unarmed)
    · exact quiet

end Sys2Proof.Machine
end


section
/-! A block period without a good header: the lock's ports, the core-silence count and the silent appends (O13). -/

namespace Sys2Proof.Machine
open Sys2Proof.Safety

/-! ### The lock's table on the ports (R139) -/

/-- The lock's table, on the ports alone. -/
def Ports.sees (p : Ports) (x : LockSight) : Ports :=
  match p.lock, x with
  | .unlocked, .inSequence => { p with lock := .acquiring, acquire := 1 }
  | .unlocked, .gap => { p with lock := .acquiring, acquire := 1 }
  | .unlocked, .lost => p
  | .acquiring, .inSequence =>
    if 16 ≤ p.acquire + 1 then { p with lock := .locked, acquire := 16, loss := 0, armed := true } else { p with acquire := p.acquire + 1 }
  | .acquiring, _ => { p with lock := .unlocked, acquire := 0 }
  | .locked, .inSequence => { p with loss := 0 }
  | .locked, _ => if 3 ≤ p.loss + 1 then { p with lock := .unlocked, acquire := 0, loss := 0 } else { p with loss := p.loss + 1 }

theorem State.lockSees_ports (s : State) (x : LockSight) : (s.lockSees x).ports = s.ports.sees x := by
  have rises : s.lossRises.ports =
      if 3 ≤ s.ports.loss + 1 then { s.ports with lock := .unlocked, acquire := 0, loss := 0 } else { s.ports with loss := s.ports.loss + 1 } := by
    unfold State.lossRises State.lockLost Config.lossLimit
    split
    · dsimp only
      split
      · exact (State.raise_reports _ _ _ _).ports
      · rfl
    · rfl
  have acquires : s.acquisitionRises.ports =
      if 16 ≤ s.ports.acquire + 1 then { s.ports with lock := .locked, acquire := 16, loss := 0, armed := true }
      else { s.ports with acquire := s.ports.acquire + 1 } := by
    unfold State.acquisitionRises State.lockReached Config.acquireLimit
    split
    · dsimp only
      split
      · exact (State.leaveOffline_reports _).ports
      · rfl
    · rfl
  unfold State.lockSees Ports.sees
  cases lock : s.ports.lock with
  | unlocked => cases x <;> rfl
  | acquiring => cases x with
    | inSequence => exact acquires.trans (by simp only [lock])
    | gap => rfl
    | lost => rfl
  | locked => cases x with
    | inSequence =>
      show { s.ports with loss := 0 } = _
      simp only [lock]
    | gap => exact rises.trans (by simp only [lock])
    | lost => exact rises.trans (by simp only [lock])

/-- The table neither reads nor writes the last number, the room marks or the core-silence count. -/
theorem Ports.sees_beside (p : Ports) (x : LockSight) (seq : Byte) (marks : Nat) (early : Bool) :
    ({ p with lastSeq := seq, roomMarks := marks, roomEarly := early } : Ports).sees x =
      { p.sees x with lastSeq := seq, roomMarks := marks, roomEarly := early } := by
  obtain ⟨lock⟩ := p
  unfold Ports.sees
  cases lock with
  | unlocked => cases x <;> rfl
  | acquiring =>
    cases x with
    | inSequence => dsimp only; split <;> rfl
    | gap => rfl
    | lost => rfl
  | locked =>
    cases x with
    | inSequence => rfl
    | gap => dsimp only; split <;> rfl
    | lost => dsimp only; split <;> rfl

theorem Ports.sees_kept (p : Ports) (x : LockSight) :
    p.sees x = { p with lock := (p.sees x).lock, acquire := (p.sees x).acquire, loss := (p.sees x).loss, armed := (p.sees x).armed } := by
  obtain ⟨lock⟩ := p
  unfold Ports.sees
  cases lock with
  | unlocked => cases x <;> rfl
  | acquiring =>
    cases x with
    | inSequence => dsimp only; split <;> rfl
    | gap => rfl
    | lost => rfl
  | locked =>
    cases x with
    | inSequence => rfl
    | gap => dsimp only; split <;> rfl
    | lost => dsimp only; split <;> rfl

/-! ### The lost period (R130, R131, R141) -/

/-- The core-silence count after a bad or missing period (R141). -/
def silenceAfter (count : Nat) : Nat := if count < 48 then count + 1 else count

theorem State.coreSilenceRises_eq (s : State) :
    s.coreSilenceRises =
      let counted := s.setPorts { s.ports with coreSilence := silenceAfter s.ports.coreSilence }
      if s.ports.coreSilence = 47 ∧ s.ports.armed = true then counted.raise .coreSilence (.port .core) none else counted := by
  unfold State.coreSilenceRises silenceAfter Config.silenceLimit
  by_cases h : s.ports.coreSilence < 48
  · simp only [h, if_true, Nat.reduceEqDiff]
  · have ne : s.ports.coreSilence ≠ 47 := by omega
    simp only [h, if_false, ne, false_and]
    rfl

theorem State.coreSilenceRises_sighted (s : State) :
    s.coreSilenceRises.ports = { s.ports with coreSilence := silenceAfter s.ports.coreSilence } ∧ Outward s s.coreSilenceRises ∧
      s.coreSilenceRises.references = s.references ∧ s.coreSilenceRises.histories = s.histories := by
  rw [s.coreSilenceRises_eq]
  dsimp only
  split
  · have told := State.raise_reports (s.setPorts { s.ports with coreSilence := silenceAfter s.ports.coreSilence }) .coreSilence (.port .core) none
    exact ⟨told.ports, (s.setPorts_outward _).trans told.outward, told.references, told.histories⟩
  · exact ⟨rfl, s.setPorts_outward _, rfl, rfl⟩

/-- The room marks after a period's mark (R134; log 4). -/
def Ports.marksAfter (p : Ports) : Nat := if p.roomEarly then p.roomMarks else p.roomMarks + 1

theorem State.lockSees_marked_ports (s : State) :
    (s.markPeriod.lockSees .lost).ports = { s.ports.sees .lost with roomMarks := s.ports.marksAfter, roomEarly := false } := by
  have marked : s.markPeriod.ports = { s.ports with roomMarks := s.ports.marksAfter, roomEarly := false } := by
    rw [s.markPeriod_eq]
    rfl
  have number : (s.ports.sees .lost).lastSeq = s.ports.lastSeq := by rw [s.ports.sees_kept]
  rw [State.lockSees_ports, marked, s.ports.sees_beside .lost s.ports.lastSeq s.ports.marksAfter false, ← number]

theorem State.lostPeriod_ports (s : State) :
    s.lostPeriod.ports = { s.ports.sees .lost with
      roomMarks := s.ports.marksAfter, roomEarly := false, coreSilence := silenceAfter s.ports.coreSilence } := by
  have same : (s.ports.sees .lost).coreSilence = s.ports.coreSilence := by rw [s.ports.sees_kept]
  rw [State.lostPeriod, (State.coreSilenceRises_sighted _).1, s.lockSees_marked_ports, same]

theorem State.lostPeriod_seed (s : State) : s.lostPeriod.seed = { s.seed with granted := true } := by
  rw [State.lostPeriod, (State.coreSilenceRises_sighted _).2.1.seed, (State.lockSees_sighted _ _).seed, s.markPeriod_eq]
  rfl

theorem State.lostPeriod_references (s : State) : s.lostPeriod.references = s.references := by
  rw [State.lostPeriod, (State.coreSilenceRises_sighted _).2.2.1, (State.lockSees_sighted _ _).references, s.markPeriod_eq]
  rfl

theorem State.lostPeriod_histories (s : State) : s.lostPeriod.histories = s.histories := by
  rw [State.lostPeriod, (State.coreSilenceRises_sighted _).2.2.2, (State.lockSees_sighted _ _).histories, s.markPeriod_eq]
  rfl

/-- The 48th period in a row raises CORE_SILENCE in an armed part (R141, R142). -/
theorem State.lostPeriod_isSet (s : State) (count : s.ports.coreSilence = 47) (armed : (s.ports.sees .lost).armed = true) :
    s.lostPeriod.unit.isSet .coreSilence = true := by
  have sighted := s.lockSees_marked_ports
  rw [State.lostPeriod, State.coreSilenceRises_eq]
  dsimp only
  rw [if_pos ⟨by rw [sighted]; exact (congrArg Ports.coreSilence (s.ports.sees_kept .lost)).trans count, by rw [sighted]; exact armed⟩]
  exact State.raise_isSet _ _ _ _

/-! ### The silent appends (R42, R46) -/

section
variable (op : OpState) (s : State) (r : Nat)

theorem State.silentAppend_untrusted (h : (s.reference r).parityBad = true) : State.silentAppend op s r = s.appendUntrusted r := if_pos h

theorem State.silentAppend_dithered (h : (s.reference r).parityBad = false) (dithered : (s.reference r).dithered op = true) :
    State.silentAppend op s r = (s.putModulator r (s.modulator r).skipBlock).appendTo r silence := by
  unfold State.silentAppend
  simp only [h, dithered, Bool.false_eq_true, if_false, if_true]

theorem State.silentAppend_plain (h : (s.reference r).parityBad = false) (plain : (s.reference r).dithered op = false) :
    State.silentAppend op s r = s.appendTo r silence := by
  unfold State.silentAppend
  simp only [h, plain, Bool.false_eq_true, if_false]

theorem State.silentAppend_tapped : Tapped s (State.silentAppend op s r) := by
  unfold State.silentAppend
  dsimp only
  split
  · exact s.appendUntrusted_tapped r
  · split
    · exact (s.putModulator_tapped r _).trans (State.appendTo_tapped _ r _)
    · exact s.appendTo_tapped r _

theorem State.putModulator_appendTo_only (m : Modulator) (b : Slot) : OnlyReference r s ((s.putModulator r m).appendTo r b) :=
  ⟨(State.appendTo_only (s.putModulator r m) r b).history, (State.appendTo_only (s.putModulator r m) r b).reference,
    (State.appendTo_only (s.putModulator r m) r b).histories, (State.appendTo_only (s.putModulator r m) r b).references⟩

theorem State.silentAppend_only : OnlyReference r s (State.silentAppend op s r) := by
  unfold State.silentAppend
  dsimp only
  split
  · exact s.appendUntrusted_only r
  · split
    · exact s.putModulator_appendTo_only r _ _
    · exact s.appendTo_only r _

theorem State.silentAppend_history (h : r < s.histories.length) :
    (State.silentAppend op s r).history r = (silence :: s.history r).take 512 := by
  unfold State.silentAppend
  dsimp only
  split
  · rw [s.appendUntrusted_eq]
    simp [State.history, h]
  · split
    · exact State.history_appendTo (s.putModulator r _) r _ h
    · exact s.history_appendTo r _ h

/-- A trusted reference's silent append reports nothing. -/
theorem State.silentAppend_unit (h : (s.reference r).parityBad = false) : (State.silentAppend op s r).unit = s.unit := by
  cases dithered : (s.reference r).dithered op with
  | true => rw [s.silentAppend_dithered op r h dithered]; rfl
  | false => rw [s.silentAppend_plain op r h dithered]; rfl

theorem Reference.tested_silence (ref : Reference) :
    ref.tested (reachesThreshold silence ref.threshold) =
      if 0 < ref.hangoverCount then { ref with hangoverCount := ref.hangoverCount - 1 } else { ref with active := false } := by
  rw [reachesThreshold_silence]
  rfl

end

theorem State.silentAppendAll_tapped (s : State) : Tapped s s.silentAppendAll := by
  unfold State.silentAppendAll
  generalize s.unit.opState = op
  induction List.range Config.numReferences generalizing s with
  | nil => exact .refl s
  | cons r rest ih => exact (s.silentAppend_tapped op r).trans (ih _)

theorem State.silentAppendAll_history (s : State) (sized : s.histories.length = 8) {r : Nat} (hr : r < 8) :
    s.silentAppendAll.history r = (silence :: s.history r).take 512 := by
  obtain ⟨v, history, -, length, -, fold, -⟩ :=
    foldl_onlyReference (State.silentAppend_only s.unit.opState) s (l := List.range 8) List.nodup_range (List.mem_range.mpr hr)
  exact fold.trans ((v.silentAppend_history s.unit.opState r (by omega)).trans (by rw [history]))

/-- The silent appends of trusted references leave the fault unit. -/
theorem State.silentAppendAll_unit (s : State) (trusted : ∀ r < 8, (s.reference r).parityBad = false) : s.silentAppendAll.unit = s.unit := by
  have fold : ∀ (op : OpState) (l : List Nat) (v : State), (∀ r ∈ l, (v.reference r).parityBad = false) →
      (l.foldl (State.silentAppend op) v).unit = v.unit := fun op l => by
    induction l with
    | nil => exact fun _ _ => rfl
    | cons r rest ih =>
      intro v h
      have here := v.silentAppend_unit op r (h r List.mem_cons_self)
      refine (ih (State.silentAppend op v r) fun k hk => ?_).trans here
      have same : ((State.silentAppend op v r).reference k).parityBad = (v.reference k).parityBad :=
        congrArg (fun settings => settings.2.2.2.2.2) ((v.silentAppend_periodWork op r).reference k)
      exact same.trans (h k (List.mem_cons_of_mem r hk))
  exact fold _ _ s fun r hr => trusted r (List.mem_range.mp hr)

/-! ### The period as a whole (R130, R131) -/

/-- From `s` to `t` a block period without a good header has passed. -/
structure PeriodLost (s t : State) : Prop where
  ports : t.ports = { s.ports.sees .lost with
    lastSeq := s.ports.lastSeq + 1, roomMarks := s.ports.marksAfter, roomEarly := false, coreSilence := silenceAfter s.ports.coreSilence }
  seed : t.seed = { queue := s.seed.queue, granted := true }
  raised : s.ports.coreSilence = 47 → (s.ports.sees .lost).armed = true → t.unit.isSet .coreSilence = true
  history : ∀ r < 8, t.history r = (silence :: s.history r).take 512
  work : PeriodWork s t

theorem PeriodLost.timerRunning {s t : State} (h : PeriodLost s t) : t.ports.timerRunning = s.ports.timerRunning := by
  have kept : (s.ports.sees .lost).timerRunning = s.ports.timerRunning := by rw [s.ports.sees_kept]
  rw [h.ports]
  exact kept

theorem State.advanceSeq_periodWork (s : State) : PeriodWork s s.advanceSeq := s.setPorts_periodWork _ rfl rfl rfl rfl

/-- A period is lost in the same way after a raise, which leaves the ports, the seed engine and the histories. -/
theorem Reports.periodLost {s v : State} (told : Reports s v) (sized : s.histories.length = 8) :
    PeriodLost s v.advanceSeq.lostPeriod.silentAppendAll where
  ports := by
    have numbered : v.advanceSeq.ports = { s.ports with lastSeq := s.ports.lastSeq + 1 } := by
      rw [State.advanceSeq, State.setPorts_ports, told.ports]
    have beside : ({ s.ports with lastSeq := s.ports.lastSeq + 1 } : Ports).sees .lost =
        { s.ports.sees .lost with lastSeq := s.ports.lastSeq + 1 } := by
      refine (s.ports.sees_beside .lost (s.ports.lastSeq + 1) s.ports.roomMarks s.ports.roomEarly).trans ?_
      have marks : (s.ports.sees .lost).roomMarks = s.ports.roomMarks := by rw [s.ports.sees_kept]
      have early : (s.ports.sees .lost).roomEarly = s.ports.roomEarly := by rw [s.ports.sees_kept]
      rw [← marks, ← early]
    rw [(State.silentAppendAll_tapped _).ports, State.lostPeriod_ports, numbered, beside]
    rfl
  seed := by
    rw [(State.silentAppendAll_tapped _).seed, State.lostPeriod_seed, State.advanceSeq, State.setPorts_seed, told.seed]
  raised := fun count armed => by
    refine (State.silentAppendAll_periodWork _).statuses _ (State.lostPeriod_isSet _ ?_ ?_)
    · rw [State.advanceSeq, State.setPorts_ports, told.ports]
      exact count
    · rw [State.advanceSeq, State.setPorts_ports, told.ports]
      have beside := congrArg Ports.armed (s.ports.sees_beside .lost (s.ports.lastSeq + 1) s.ports.roomMarks s.ports.roomEarly)
      exact beside.trans armed
  history := fun r hr => by
    have histories : v.advanceSeq.lostPeriod.histories = s.histories := (State.lostPeriod_histories _).trans told.histories
    rw [State.silentAppendAll_history _ (histories ▸ sized) hr, State.history, histories]
    rfl
  work := ((told.periodWork.trans v.advanceSeq_periodWork).trans (State.lostPeriod_periodWork _)).trans (State.silentAppendAll_periodWork _)

/-- The lost period as the statement writes it out, the count read before the mark. -/
theorem State.lostPeriod_eq (v : State) {n : Nat} (count : v.ports.coreSilence = n) :
    v.lostPeriod =
      let sighted := v.markPeriod.lockSees .lost
      let counted : State := { sighted with ports := { sighted.ports with coreSilence := silenceAfter n } }
      if n = 47 ∧ sighted.ports.armed = true then counted.raise .coreSilence (.port .core) none else counted := by
  have same : (v.markPeriod.lockSees .lost).ports.coreSilence = n := by
    rw [v.lockSees_marked_ports]
    exact (congrArg Ports.coreSilence (v.ports.sees_kept .lost)).trans count
  rw [State.lostPeriod, State.coreSilenceRises_eq, same]
  rfl

theorem fillerSlots_eq (op : OpState) (slots : List Slot) :
    fillerSlots op slots = if op = .bypass then slots else List.replicate 16 silence := by cases op <;> rfl

theorem exec_outboundBadArrival (s : State) (slots : List Slot) (running : s.ports.pinHeld = false) :
    exec (.outboundBadArrival slots) s = .next (s.outboundBad slots) :=
  congrArg Host.Outcome.next (s.whilePortsRun_run _ running)

/-- A bad arrival while the timer runs. -/
theorem State.outboundBad_running (s : State) (slots : List Slot) (timer : s.ports.timerRunning = true) :
    s.outboundBad slots =
      let v := (s.raise .headerCrc (.port .core) none).advanceSeq
      v.lostPeriod.silentAppendAll.sendRoom
        { seq := s.ports.lastSeq + 1, filler := true, slots := fillerSlots v.lostPeriod.unit.opState slots, packet := none } := by
  have ports := (s.raise_reports .headerCrc (.port .core) none).ports
  have on : (s.raise .headerCrc (.port .core) none).advanceSeq.ports.timerRunning = true := (congrArg Ports.timerRunning ports).trans timer
  have number : (s.raise .headerCrc (.port .core) none).advanceSeq.ports.lastSeq = s.ports.lastSeq + 1 := congrArg (fun p => p.lastSeq + 1) ports
  unfold State.outboundBad
  dsimp only
  rw [on, if_pos rfl, if_pos rfl, number]

/-- A bad arrival before the timer runs: no period passes. -/
theorem State.outboundBad_stopped (s : State) (slots : List Slot) (timer : s.ports.timerRunning = false) :
    s.outboundBad slots =
      let v := (s.raise .headerCrc (.port .core) none).advanceSeq
      v.sendRoom { seq := s.ports.lastSeq + 1, filler := true, slots := fillerSlots v.unit.opState slots, packet := none } := by
  have ports := (s.raise_reports .headerCrc (.port .core) none).ports
  have off : (s.raise .headerCrc (.port .core) none).advanceSeq.ports.timerRunning = false := (congrArg Ports.timerRunning ports).trans timer
  have number : (s.raise .headerCrc (.port .core) none).advanceSeq.ports.lastSeq = s.ports.lastSeq + 1 := congrArg (fun p => p.lastSeq + 1) ports
  unfold State.outboundBad
  dsimp only
  rw [off, if_neg (by decide), if_neg (by decide), number]

/-- A bad arrival while the timer runs loses the period, and sends a filler block under the operating state it leaves. -/
theorem State.outboundBad_lost (s : State) (slots : List Slot) (timer : s.ports.timerRunning = true) (sized : s.histories.length = 8)
    (trusted : ∀ r < 8, (s.reference r).parityBad = false) :
    ∃ x, PeriodLost s x ∧ x.unit.isSet .headerCrc = true ∧
      s.outboundBad slots =
        x.sendRoom { seq := s.ports.lastSeq + 1, filler := true, slots := fillerSlots x.unit.opState slots, packet := none } := by
  have told := s.raise_reports .headerCrc (.port .core) none
  have set := s.raise_isSet .headerCrc (.port .core) none
  rw [s.outboundBad_running slots timer]
  dsimp only
  generalize s.raise .headerCrc (.port .core) none = v at told set ⊢
  have references := v.advanceSeq.lostPeriod_references.trans told.references
  have unit := v.advanceSeq.lostPeriod.silentAppendAll_unit fun r hr => by
    rw [State.reference, references]
    exact trusted r hr
  refine ⟨_, told.periodLost sized, ?_, by rw [unit]⟩
  exact ((v.advanceSeq_periodWork.trans (State.lostPeriod_periodWork _)).trans (State.silentAppendAll_periodWork _)).statuses _ set

theorem State.timerExpires_lost (s : State) (timer : s.ports.timerRunning = true) (sized : s.histories.length = 8) :
    ∃ x, PeriodLost s x ∧ s.timerExpires = x.setPorts { x.ports with roomTx := none } :=
  ⟨_, (Reports.refl s).periodLost sized, if_pos timer⟩

/-- Settles O13: the period as a whole in both rows, the silent append of one reference, and the fields after each row. -/
theorem lostPeriodEffect : Obligations.LostPeriodEffect := by
  refine ⟨fun s timer => ?_, fun s op r hr sized => ?_, fun s slots running sized trusted => ?_, fun s timer sized => ?_⟩
  · intro appended numbered
    have period : ∀ v : State, v.ports.coreSilence = s.ports.coreSilence →
        appended v = (v.lostPeriod.silentAppendAll, v.lostPeriod.unit.opState) := fun v count => by
      rw [v.lostPeriod_eq count]
      rfl
    refine ⟨fun slots running => ?_, ?_⟩
    · have ports := (s.raise_reports .headerCrc (.port .core) none).ports
      have advanced : numbered (s.raise .headerCrc (.port .core) none) = (s.raise .headerCrc (.port .core) none).advanceSeq := by
        rw [State.advanceSeq, ports, State.setPorts]
        show ({ s.raise .headerCrc (.port .core) none with ports := _ } : State) = _
        rw [ports]
      have count : (s.raise .headerCrc (.port .core) none).advanceSeq.ports.coreSilence = s.ports.coreSilence := by
        rw [State.advanceSeq, State.setPorts_ports, ports]
      have passed := period _ count
      rw [← advanced] at passed
      rw [exec_outboundBadArrival s slots running, s.outboundBad_running slots timer, ← advanced]
      intro u
      have both : u = _ := passed
      rw [both]
      dsimp only
      rw [fillerSlots_eq]
      generalize (numbered (s.raise .headerCrc (.port .core) none)).lostPeriod = v
      generalize v.silentAppendAll = x
      rfl
    · have expires : exec .blockIntervalTimerExpiry s = .next s.timerExpires := rfl
      intro w
      have advanced : numbered s = s.advanceSeq := rfl
      have passed := period (numbered s) rfl
      have done : w = (appended (numbered s)).1 := rfl
      rw [passed, advanced] at done
      dsimp only at done
      rw [expires, State.timerExpires, if_pos timer, done]
      generalize s.advanceSeq.lostPeriod.silentAppendAll = x
      rfl
  · intro ref tested m dithered
    have test : ref.tested (reachesThreshold silence ref.threshold) = tested := ref.tested_silence
    refine ⟨fun good dither => ?_, fun good plain => ?_, fun bad => ?_⟩
    · rw [s.silentAppend_dithered op r good ((ref.dithered_iff op).mpr dither), ← test]
      rfl
    · rw [s.silentAppend_plain op r good (Bool.eq_false_iff.mpr fun h => plain ((ref.dithered_iff op).mp h)), ← test]
      rfl
    · rw [s.silentAppend_untrusted op r bad, s.appendUntrusted_eq, ← test]
  · refine ⟨s.outboundBad slots, exec_outboundBadArrival s slots running, ?_⟩
    have told := s.raise_reports .headerCrc (.port .core) none
    have set := s.raise_isSet .headerCrc (.port .core) none
    cases timer : s.ports.timerRunning with
    | false =>
      rw [s.outboundBad_stopped slots timer]
      dsimp only
      generalize s.raise .headerCrc (.port .core) none = v at told set ⊢
      have port : ∀ {α : Type} (f : Ports → α), f v.ports = f s.ports := fun f => congrArg f told.ports
      refine ⟨set, port fun p => p.lastSeq + 1, (port Ports.timerRunning).trans timer, ?_, fun _ => ?_, fun on => absurd on (by decide),
        told.channels, told.paths, told.pool, told.comparator, congrArg SeedEngine.queue told.seed, told.decision, told.replies, told.forward,
        told.streamer⟩
      · rw [fillerSlots_eq]
        rfl
      · exact ⟨told.histories, told.references, told.seed, port Ports.lock, port Ports.acquire, port Ports.loss, port Ports.armed,
          port Ports.coreSilence, port Ports.roomMarks⟩
    | true =>
      obtain ⟨x, lost, stands, row⟩ := s.outboundBad_lost slots timer sized.2.2.1 trusted
      rw [row, s.lockSees_ports]
      have port : ∀ {α : Type} (f : Ports → α), f x.ports = f _ := fun f => congrArg f lost.ports
      refine ⟨stands, port Ports.lastSeq, lost.timerRunning.trans timer,
        ?_, fun off => absurd off (by decide), fun _ => ?_, lost.work.channels, lost.work.paths, lost.work.pool, lost.work.comparator,
        lost.work.queue, lost.work.decision, lost.work.replies, lost.work.forward, lost.work.streamer⟩
      · rw [fillerSlots_eq]
        rfl
      · exact ⟨port Ports.lock, port Ports.acquire, port Ports.loss, port Ports.armed, lost.seed, port Ports.roomMarks, port Ports.roomEarly,
          port Ports.coreSilence, lost.raised, lost.history⟩
  · have expires : exec .blockIntervalTimerExpiry s = .next s.timerExpires := rfl
    obtain ⟨x, lost, row⟩ := s.timerExpires_lost timer sized.2.2.1
    rw [expires, row, s.lockSees_ports]
    refine ⟨_, rfl, ?_⟩
    have port : ∀ {α : Type} (f : Ports → α), f x.ports = f _ := fun f => congrArg f lost.ports
    exact ⟨port Ports.lastSeq, rfl, lost.timerRunning.trans timer,
      port Ports.lock, port Ports.acquire, port Ports.loss, port Ports.armed, lost.seed, port Ports.roomMarks, port Ports.roomEarly,
      port Ports.coreSilence, lost.raised, lost.history, lost.work.channels, lost.work.paths, lost.work.pool, lost.work.comparator,
      lost.work.decision, lost.work.replies, lost.work.forward, lost.work.streamer, lost.work.coreLine⟩

end Sys2Proof.Machine
end


section
/-! An inbound link block: what comes between its channel blocks (O21), and the filler block that replaces a damaged one (O20). -/

namespace Sys2Proof.Machine
open Sys2Proof.Safety

/-! ### A command row and its packet -/

/-- A payload that a command row is sent with has the length of its code (11.4). -/
theorem commandLength_commandOf {i : Instr} {code tag : Byte} {payload : List Byte} (formed : i.wellFormed = true)
    (sent : commandOf i = some (code, tag, payload)) : commandLength code = some payload.length := by
  cases i with
  | powerOn | resetPinAssert | resetPin | outboundGoodArrival | outboundBadArrival | blockIntervalTimerExpiry | lockAcquired | lockLoss
  | coreSilence | roomSilenceAdvance | roomSilence | inboundGoodArrival | inboundBadArrival | inboundBlockTransmit | seedStep | windowEnd
  | captureClip | activityHangoverExpiry | nearHangoverExpiry => cases sent
  | writeCoeff tag path index taps => exact Laws.Payload.writeCoeff tag path index taps _ _ _ formed sent
  | _ => cases sent; rfl

/-- A command row is read back from the packet it is sent in (11.4). -/
theorem commandRow_commandOf {i : Instr} {code tag : Byte} {payload : List Byte} (sent : commandOf i = some (code, tag, payload)) :
    commandRow code tag payload = some i := by
  cases i with
  | powerOn | resetPinAssert | resetPin | outboundGoodArrival | outboundBadArrival | blockIntervalTimerExpiry | lockAcquired | lockLoss
  | coreSilence | roomSilenceAdvance | roomSilence | inboundGoodArrival | inboundBadArrival | inboundBlockTransmit | seedStep | windowEnd
  | captureClip | activityHangoverExpiry | nearHangoverExpiry => cases sent
  | allocatePath | resizePath | readChain | writeReference | readPath | clearFaults | writeFaultPolicy | writeCoeff =>
    cases sent
    simp [commandRow, payloadByte, payloadHalf, halfBytes]
  | _ => cases sent; rfl

/-- The packet of a command row is taken as that row (R144, R145). -/
theorem State.takeCommand_commandOf (s : State) {i : Instr} {code tag : Byte} {payload : List Byte} (formed : i.wellFormed = true)
    (sent : commandOf i = some (code, tag, payload)) : s.takeCommand code tag payload = s.takeRow i := by
  unfold State.takeCommand
  simp only [commandLength_commandOf formed sent, commandRow_commandOf sent, ne_eq, not_true_eq_false, if_false]

/-! ### What comes between channel blocks (R49, R112) -/

theorem State.takeInterludes_eq (s : State) (between : List (Nat × Interlude)) (c : Nat) :
    s.takeInterludes between c = ((between.filter fun x => x.1 == c).map Prod.snd).foldl State.takeInterlude s := by
  rw [List.foldl_map]
  rfl

theorem State.takeInterludes_single (s : State) (n : Nat) (x : Interlude) (c : Nat) :
    s.takeInterludes [(n, x)] c = if n = c then s.takeInterlude x else s := by
  unfold State.takeInterludes
  by_cases h : n = c <;> simp [h]

/-- One interlude before channel `n`'s block stands between two runs of channel blocks. -/
theorem State.processSlots_single (s : State) (n : Nat) (x : Interlude) (slots : List Slot) (hn : n < 24) :
    s.processSlots [(n, x)] slots =
      let before := (List.range n).foldl (State.channelBlock s.unit.opState s.unit.safeAction slots) (slots, s)
      (List.range' n (24 - n)).foldl (State.channelBlock s.unit.opState s.unit.safeAction slots) (before.1, before.2.takeInterlude x) := by
  have elsewhere : ∀ (l : List Nat), n ∉ l → ∀ acc : List Slot × State,
      l.foldl (State.channelTurn s.unit.opState s.unit.safeAction slots [(n, x)]) acc =
        l.foldl (State.channelBlock s.unit.opState s.unit.safeAction slots) acc := fun l notin acc => by
    refine List.foldl_ext _ _ acc fun acc c hc => ?_
    have ne : n ≠ c := fun e => notin (e ▸ hc)
    rw [State.channelTurn, State.takeInterludes_single, if_neg ne]
  have tail : List.range' n (24 - n) = n :: List.range' (n + 1) (23 - n) := by
    rw [← List.range'_succ]
    congr 1
    omega
  have split : List.range 24 = List.range n ++ List.range' n (24 - n) := by
    have joined := List.range'_append_1 (s := 0) (m := n) (n := 24 - n)
    rw [Nat.zero_add, Nat.add_sub_cancel' hn.le] at joined
    rw [List.range_eq_range', List.range_eq_range', joined]
  have here : ∀ acc : List Slot × State,
      State.channelTurn s.unit.opState s.unit.safeAction slots [(n, x)] acc n =
        State.channelBlock s.unit.opState s.unit.safeAction slots (acc.1, acc.2.takeInterlude x) n := fun acc => by
    rw [State.channelTurn, State.takeInterludes_single, if_pos rfl]
  show (List.range 24).foldl (State.channelTurn s.unit.opState s.unit.safeAction slots [(n, x)]) (slots, s) = _
  rw [split, List.foldl_append, elsewhere (List.range n) (by simp), tail, List.foldl_cons, here, elsewhere (List.range' (n + 1) (23 - n)) (by simp),
    List.foldl_cons]

theorem State.takeInterlude_command (s : State) (code tag : Byte) (payload : List Byte) (running : s.ports.pinHeld = false) :
    s.takeInterlude (.command code tag payload) = s.takeCommand code tag payload :=
  s.whilePortsRun_run (fun v => v.takeCommand code tag payload) running

/-- A bank selected between two channel blocks (R112). -/
theorem State.takeCommand_selectBank (s : State) (tag bank : Byte) (room : s.control.replies.length < 16) (range : bank.toNat ≤ 1) :
    s.takeCommand 0x53 tag [bank] = replied { s with decision := { s.decision with active := bank.toNat } } tag 0x53 .done [] := by
  have row : s.takeCommand 0x53 tag [bank] = s.takeSelectDecisionBank tag bank :=
    s.takeCommand_commandOf (i := .selectDecisionBank tag bank) rfl rfl
  have answer : (if 1 < bank.toNat then s.refuse .range else (s.setDecision { s.decision with active := bank.toNat }).done []) =
      (s.setDecision { s.decision with active := bank.toNat }).done [] := if_neg (Nat.not_lt.mpr range)
  rw [row, State.takeSelectDecisionBank, s.take_room _ _ _ room, answer]
  rfl

theorem State.foldl_channelBlock_blockWork (op : OpState) (action : SafeAction) (arrived : List Slot) (l : List Nat) (acc : List Slot × State) :
    BlockWork acc.2 (l.foldl (State.channelBlock op action arrived) acc).2 := by
  induction l generalizing acc with
  | nil => exact .refl _
  | cons c rest ih => exact (State.channelBlock_spec op action arrived acc.1 acc.2 c).1.trans (ih _)

/-- Settles O21: the channel blocks one after another with their interludes, and each interlude as its row has it. -/
theorem inboundBlockProcessing : Obligations.InboundBlockProcessing := by
  refine ⟨State.processSlots_nil, fun s between slots => ?_, fun s x n slots hn => s.processSlots_single n x slots hn, fun s => ?_,
    fun s tag bank n slots accepting range hn => ?_⟩
  · refine List.foldl_ext _ _ (slots, s) fun acc c _ => ?_
    rw [State.channelTurn, State.takeInterludes_eq]
  · refine ⟨fun i code tag payload formed sent => ?_, fun _ _ _ _ _ => rfl, fun _ => rfl, rfl, rfl, rfl⟩
    rw [exec_command i s (by rw [sent]; rfl), State.takeInterlude]
    have row : (fun t : State => t.takeRow i) = fun t => t.takeCommand code tag payload :=
      funext fun t => (t.takeCommand_commandOf formed sent).symm
    rw [row]
  · intro before switched
    have work : BlockWork s before.2 := State.foldl_channelBlock_blockWork _ _ _ _ (slots, s)
    have running : before.2.ports.pinHeld = false := (congrArg Ports.pinHeld work.ports).trans accepting.1
    have room : before.2.control.replies.length < 16 := (congrArg List.length work.replies).trans_lt accepting.2
    have command : switched = before.2.takeCommand 0x53 tag [bank] := before.2.takeInterlude_command 0x53 tag [bank] running
    refine ⟨s.processSlots_single n _ slots hn, work.decision, ?_⟩
    rw [command, before.2.takeCommand_selectBank tag bank room range, work.decision]

/-! ### The replacement of a damaged block (R137, R138) -/

/-- The state in which the filler block that replaces a damaged block is built (R138). -/
def State.damaged (s : State) : State :=
  let raised := s.raise .headerCrc (.port .room) none
  { raised with ports := { raised.ports with skip := raised.ports.skip || raised.ports.origination } }

theorem replacementSlots_eq (op : OpState) (slots : List Slot) :
    replacementSlots op slots = if op = .bypass then slots else List.replicate 32 silence := by cases op <;> rfl

theorem State.inboundBad_eq (s : State) (slots : List Slot) (between : List (Nat × Interlude)) :
    s.inboundBad slots between =
      s.damaged.sendFiller between
        (if (s.raise .headerCrc (.port .room) none).unit.opState = .bypass then slots else List.replicate 32 silence) := by
  have marked : ∀ v : State, (if v.ports.origination then v.setPorts { v.ports with skip := true } else v) =
      { v with ports := { v.ports with skip := v.ports.skip || v.ports.origination } } := fun v => by
    cases origination : v.ports.origination with
    | true =>
      rw [Bool.or_true, if_pos rfl]
      rfl
    | false =>
      rw [Bool.or_false, if_neg (by decide)]
  rw [State.inboundBad]
  dsimp only
  rw [marked, replacementSlots_eq]
  rfl

theorem exec_inboundBadArrival (s : State) (slots : List Slot) (between : List (Nat × Interlude)) (running : s.ports.pinHeld = false) :
    exec (.inboundBadArrival slots between) s = .next (s.inboundBad slots between) :=
  congrArg Host.Outcome.next (s.whilePortsRun_run _ running)

/-- A filler block built and queued, field by field (R137). -/
theorem State.sendFiller_eq (s : State) (between : List (Nat × Interlude)) (slots : List Slot) :
    s.sendFiller between slots =
      let done := s.processSlots between slots
      { done.2 with
        ports :=
          { done.2.ports with
            inTxSeq := done.2.ports.inTxSeq + 1
            coreLine := done.2.ports.coreLine ++ [{ seq := done.2.ports.inTxSeq + 1, filler := true, slots := done.1 }] } } := rfl

/-- Slots that are the same where no channel names them are the same where no larger set does. -/
theorem SameElsewhere.mono {named other : Nat → Prop} {before after : List Slot} (h : SameElsewhere named before after)
    (same : ∀ k, named k → other k) : SameElsewhere other before after :=
  ⟨h.1, fun k unnamed => h.2 k fun n => unnamed (same k n)⟩

/-- Settles O20: the block sent in the damaged one's place, and what a block without interludes leaves alone. -/
theorem inboundBadArrivalEffect : Obligations.InboundBadArrivalEffect := by
  refine ⟨fun s slots between running => ?_, fun s slots running => ?_⟩
  · intro raised marked done
    rw [exec_inboundBadArrival s slots between running, s.inboundBad_eq, State.sendFiller_eq]
    rfl
  · have told := s.raise_reports .headerCrc (.port .room) none
    have set := s.raise_isSet .headerCrc (.port .room) none
    have row := exec_inboundBadArrival s slots [] running
    rw [s.inboundBad_eq, State.sendFiller_eq] at row
    have ports : s.damaged.ports = { s.ports with skip := s.ports.skip || s.ports.origination } := by
      unfold State.damaged
      dsimp only
      rw [told.ports]
    have channel : ∀ c, s.damaged.channel c = s.channel c := told.channel
    have outward : Outward s s.damaged := told.outward.trans (State.setPorts_outward _ _)
    have free : s.damaged.pool.free = s.pool.free := congrArg Pool.free outward.pool
    have stands : s.damaged.unit.isSet .headerCrc = true := set
    have references : s.damaged.references = s.references := told.references
    have histories : s.damaged.histories = s.histories := told.histories
    have replies : s.damaged.control.replies = s.control.replies := told.replies
    have forward : s.damaged.control.forward = s.control.forward := told.forward
    have streamer : s.damaged.control.streamer = s.control.streamer := told.streamer
    obtain ⟨work, elsewhere⟩ := s.damaged.processSlots_spec
      (if (s.raise .headerCrc (.port .room) none).unit.opState = .bypass then slots else List.replicate 32 silence)
    generalize s.damaged.processSlots [] _ = done at row work elsewhere
    refine ⟨_, done.1, row, work.statuses _ stands, ?_, ?_, work.replies.trans replies, work.forward.trans forward,
      work.streamer.trans streamer, work.references.trans references, work.histories.trans histories, work.decision.trans outward.decision,
      work.comparator.trans outward.comparator, work.free.trans free⟩
    · dsimp only
      rw [work.ports, ports]
    · exact SameElsewhere.mono elsewhere fun k ⟨c, hc, slot⟩ => ⟨c, hc, channel c ▸ slot⟩

end Sys2Proof.Machine
end


section
/-! A good inbound arrival: the examination of its window and what the row leaves (O19). -/

namespace Sys2Proof.Machine
open Sys2Proof.Safety

/-! ### Windows and packets (R136, R173) -/

theorem halfBytes_halfOf (a b : Byte) : halfBytes (halfOf a b) = [a, b] := by
  have high : (halfOf a b).extractLsb' 8 8 = a := by
    refine BitVec.eq_of_getLsbD_eq fun i hi => ?_
    simp only [halfOf, BitVec.getLsbD_extractLsb', BitVec.getLsbD_append]
    simp [hi]
  have low : (halfOf a b).extractLsb' 0 8 = b := by
    refine BitVec.eq_of_getLsbD_eq fun i hi => ?_
    simp only [halfOf, BitVec.getLsbD_extractLsb', BitVec.getLsbD_append]
    simp [hi]
  rw [halfBytes, high, low]

theorem windowLength_bytes2 {n : Nat} (h : n < 65536) (rest : List Byte) : windowLength (bytes2 n ++ rest) = n := by
  have half : windowLength (bytes2 n ++ rest) = (BitVec.ofNat 16 n).toNat := congrArg BitVec.toNat (halfOf_halfBytes (BitVec.ofNat 16 n))
  rw [half, BitVec.toNat_ofNat]
  exact Nat.mod_eq_of_lt h

theorem withCrc_length (body : List Byte) : (withCrc body).length = body.length + 2 := List.length_append

theorem packetBody_withCrc (body : List Byte) : packetBody (withCrc body) = body := by
  rw [packetBody, withCrc_length, Nat.add_sub_cancel, withCrc, List.take_left]

/-- The packet that a window holds where its first bytes spell it. -/
theorem window_of_take {window body : List Byte} (short : body.length ≤ 208)
    (spelt : window.take (body.length + 4) = bytes2 (body.length + 2) ++ withCrc body) :
    windowLength window = body.length + 2 ∧ windowPacket window = withCrc body := by
  have whole : window = bytes2 (body.length + 2) ++ (withCrc body ++ window.drop (body.length + 4)) := by
    rw [← List.append_assoc, ← spelt, List.take_append_drop]
  have length : windowLength window = body.length + 2 := by
    rw [whole]
    exact windowLength_bytes2 (by omega) _
  refine ⟨length, ?_⟩
  have dropped : window.drop 2 = withCrc body ++ window.drop (body.length + 4) := congrArg (List.drop 2) whole
  rw [windowPacket, length, dropped, ← withCrc_length, List.take_left]

/-- The examination of an inbound packet that is intact (R136). -/
def forwardedBody (body : List Byte) : Option (List Byte) :=
  if inboundSizeGood (withCrc body) && decide (packetHop (withCrc body) < 7) then
    match body with
    | [] => none
    | b :: rest => some ((b + 1) :: rest)
  else none

theorem readInbound_of_take {window body : List Byte} (short : body.length ≤ 208)
    (spelt : window.take (body.length + 4) = bytes2 (body.length + 2) ++ withCrc body) : readInbound window = forwardedBody body := by
  obtain ⟨length, packet⟩ := window_of_take short spelt
  have intact : packetIntact window = true := by
    unfold packetIntact Config.packetRoom
    rw [length, packet, packetBody_withCrc, withCrc_length]
    simp only [BEq.rfl, Bool.and_true]
    exact decide_eq_true (by omega)
  unfold readInbound forwardedBody
  simp only [intact, packet, packetBody_withCrc, Bool.true_and] <;> rfl

theorem windowOf_take (body : List Byte) :
    (windowOf (some (withCrc body))).take (body.length + 4) = bytes2 (body.length + 2) ++ withCrc body := by
  have length : (bytes2 (body.length + 2) ++ withCrc body).length = body.length + 4 := by
    rw [List.length_append, withCrc_length]
    exact Nat.add_comm 2 (body.length + 2)
  rw [windowOf, withCrc_length, ← length, List.take_left]

/-- A window that yields a packet spells it in its first bytes. -/
theorem spelt_of_intact {window : List Byte} (intact : packetIntact window = true) {first : Byte} {rest : List Byte}
    (body : packetBody (windowPacket window) = first :: rest) :
    rest.length ≤ 207 ∧ window.take (rest.length + 5) = bytes2 (rest.length + 3) ++ withCrc (first :: rest) := by
  unfold packetIntact Config.packetRoom at intact
  obtain ⟨⟨room, whole⟩, crc⟩ : (windowLength window ≤ 210 ∧ (windowPacket window).length = windowLength window) ∧
      windowPacket window = withCrc (packetBody (windowPacket window)) := by simpa using intact
  rw [body] at crc
  have length : windowLength window = rest.length + 3 := by rw [← whole, crc, withCrc_length]; rfl
  refine ⟨by omega, ?_⟩
  cases window with
  | nil => rw [windowPacket, List.drop_nil, List.take_nil] at body; cases body
  | cons a tail =>
    cases tail with
    | nil => rw [windowPacket, List.drop_succ_cons, List.drop_nil, List.take_nil] at body; cases body
    | cons b tail =>
      have half : bytes2 (rest.length + 3) = [a, b] := by
        rw [← length, bytes2]
        show halfBytes (BitVec.ofNat 16 (halfOf a b).toNat) = _
        rw [BitVec.ofNat_toNat, BitVec.setWidth_eq, halfBytes_halfOf]
      rw [half, ← crc, windowPacket, length]
      rfl

/-! ### The size an inbound packet may have (11.2) -/

theorem payloadByte_withCrc {body : List Byte} {k : Nat} (h : k < body.length) : payloadByte (withCrc body) k = body.getD k 0 := by
  rw [payloadByte, withCrc, List.getD_append _ _ _ _ h]

theorem noticePayload_eq_some (kind : Byte) (n : Nat) :
    noticePayload kind = some n ↔ kind.toNat = 1 ∧ n = 5 ∨ kind.toNat = 2 ∧ n = 3 ∨ kind.toNat = 3 ∧ n = 1 := by
  have one : kind = 1 ↔ kind.toNat = 1 := BitVec.toNat_inj.symm
  have two : kind = 2 ↔ kind.toNat = 2 := BitVec.toNat_inj.symm
  have three : kind = 3 ↔ kind.toNat = 3 := BitVec.toNat_inj.symm
  unfold noticePayload
  simp only [one, two, three]
  split
  · simp only [Option.some.injEq]
    omega
  · split
    · simp only [Option.some.injEq]
      omega
    · split
      · simp only [Option.some.injEq]
        omega
      · simp only [reduceCtorEq, false_iff]
        omega

/-- The sizes that the kinds of inbound packet allow, on the packet without its CRC (R136, 11.2). -/
theorem inboundSizeGood_iff (first : Byte) (rest : List Byte) :
    inboundSizeGood (withCrc (first :: rest)) = true ↔
      (first.toNat / 16 = 2 ∧ ((first :: rest).getD 4 0).toNat ≤ 200 ∧ (first :: rest).length = 5 + ((first :: rest).getD 4 0).toNat ∨
        first.toNat / 16 = 3 ∧ (((first :: rest).getD 3 0).toNat % 4 ≤ 1 ∧ (first :: rest).length = 198 ∨
          ((first :: rest).getD 3 0).toNat % 4 = 2 ∧ (first :: rest).length = 6) ∨
        first.toNat / 16 = 4 ∧ (((first :: rest).getD 1 0).toNat = 1 ∧ ((first :: rest).getD 2 0).toNat = 5 ∨
          ((first :: rest).getD 1 0).toNat = 2 ∧ ((first :: rest).getD 2 0).toNat = 3 ∨
          ((first :: rest).getD 1 0).toNat = 3 ∧ ((first :: rest).getD 2 0).toNat = 1) ∧
          (first :: rest).length = 3 + ((first :: rest).getD 2 0).toNat) := by
  have kind : packetKind (withCrc (first :: rest)) = first.toNat / 16 := rfl
  have field := fun k (h : k < (first :: rest).length) => payloadByte_withCrc h
  generalize first :: rest = body at kind field ⊢
  unfold inboundSizeGood Config.payloadLimit
  rw [kind, withCrc_length]
  by_cases two : first.toNat / 16 = 2
  · rw [if_pos two, Bool.and_eq_true, decide_eq_true_eq, beq_iff_eq]
    by_cases long : 4 < body.length
    · rw [field 4 long]
      omega
    · omega
  rw [if_neg two]
  by_cases three : first.toNat / 16 = 3
  · rw [if_pos three]
    simp only [Bool.or_eq_true, Bool.and_eq_true, decide_eq_true_eq, beq_iff_eq]
    by_cases long : 3 < body.length
    · rw [field 3 long]
      omega
    · omega
  rw [if_neg three]
  by_cases four : first.toNat / 16 = 4
  · rw [if_pos four, Bool.and_eq_true, beq_iff_eq, beq_iff_eq, noticePayload_eq_some]
    simp only [four, Nat.reduceEqDiff, false_and, false_or, true_and]
    by_cases long : 2 < body.length
    · rw [field 1 (by omega), field 2 long]
      exact and_congr_right' (by omega)
    · exact ⟨fun h => by omega, fun h => by omega⟩
  · rw [if_neg four]
    simp only [two, three, four, false_and, or_self, Bool.false_eq_true]

theorem forwardedBody_cons (first : Byte) (rest : List Byte) :
    forwardedBody (first :: rest) =
      if inboundSizeGood (withCrc (first :: rest)) = true ∧ first.toNat % 16 < 7 then some ((first + 1) :: rest) else none := by
  have hop : packetHop (withCrc (first :: rest)) = first.toNat % 16 := rfl
  unfold forwardedBody
  rw [hop]
  simp only [Bool.and_eq_true, decide_eq_true_eq]

theorem readInbound_windowOf (first : Byte) (rest : List Byte) (short : rest.length ≤ 207) :
    readInbound (windowOf (some (withCrc (first :: rest)))) = forwardedBody (first :: rest) :=
  readInbound_of_take (Nat.succ_le_succ short) (windowOf_take (first :: rest))

theorem readInbound_eq_some (window packet : List Byte) :
    readInbound window = some packet ↔
      ∃ (first : Byte) (rest : List Byte), packet = (first + 1) :: rest ∧ rest.length ≤ 207 ∧
        window.take (rest.length + 5) = bytes2 (rest.length + 3) ++ withCrc (first :: rest) ∧
        readInbound (windowOf (some (withCrc (first :: rest)))) = some packet := by
  constructor
  · intro read
    have good : packetIntact window = true := by
      by_contra bad
      rw [readInbound, Bool.eq_false_iff.mpr bad] at read
      simp at read
    cases body : packetBody (windowPacket window) with
    | nil =>
      unfold readInbound at read
      simp only [body] at read
      split at read <;> cases read
    | cons first rest =>
      obtain ⟨short, spelt⟩ := spelt_of_intact good body
      have same := (readInbound_of_take (body := first :: rest) (Nat.succ_le_succ short) spelt).symm.trans read
      refine ⟨first, rest, ?_, short, spelt, (readInbound_windowOf first rest short).trans same⟩
      rw [forwardedBody_cons] at same
      split at same
      · exact (Option.some.inj same).symm
      · cases same
  · rintro ⟨first, rest, -, short, spelt, read⟩
    exact (readInbound_of_take (body := first :: rest) (Nat.succ_le_succ short) spelt).trans
      ((readInbound_windowOf first rest short).symm.trans read)

/-! ### The row (R135) -/

/-- The state in which a good inbound block is processed (R135). -/
def State.heard (s : State) : State := { s with ports := { s.ports with roomSilence := 0, origination := false, skip := false } }

theorem exec_inboundGoodArrival (s : State) (seq flags : Byte) (slots : List Slot) (window : List Byte) (between : List (Nat × Interlude))
    (running : s.ports.pinHeld = false) :
    exec (.inboundGoodArrival seq flags slots window between) s =
      let done := s.heard.processSlots between slots
      let u := done.2.forwardPacket flags window
      .next { u with ports := { u.ports with
        inTxSeq := seq, coreLine := u.ports.coreLine ++ [{ seq := seq, filler := flags.getLsbD 7, slots := done.1 }] } } :=
  congrArg Host.Outcome.next (s.whilePortsRun_run (State.inboundGood seq flags slots window between) running)

/-- The examination of the window: none present, a bad packet, and a good one with and without room (R136). -/
theorem State.forwardPacket_eq (s : State) (flags : Byte) (window : List Byte) :
    s.forwardPacket flags window =
      if flags.getLsbD 6 = false then s
      else
        match readInbound window with
        | none => s.raise .packetError (.port .room) none
        | some p =>
          if s.control.forward.length < 8 then { s with control := { s.control with forward := s.control.forward ++ [p] } }
          else s.raise .forwardOverflow (.port .room) none := by
  unfold State.forwardPacket presentFlag
  cases flags.getLsbD 6 <;> rfl

/-- What the examination of a window leaves alone. -/
structure Examines (s t : State) : Prop where
  ports : t.ports = s.ports
  references : t.references = s.references
  histories : t.histories = s.histories
  decision : t.decision = s.decision
  comparator : t.comparator = s.comparator
  free : t.pool.free = s.pool.free
  replies : t.control.replies = s.control.replies
  streamer : t.control.streamer = s.control.streamer

theorem Reports.examines {s t : State} (h : Reports s t) : Examines s t :=
  ⟨h.ports, h.references, h.histories, h.decision, h.comparator, congrArg Pool.free h.pool, h.replies, h.streamer⟩

theorem State.forwardPacket_examines (s : State) (flags : Byte) (window : List Byte) : Examines s (s.forwardPacket flags window) := by
  unfold State.forwardPacket
  split
  · split
    · exact (s.raise_reports _ _ _).examines
    · split
      · exact ⟨rfl, rfl, rfl, rfl, rfl, rfl, rfl, rfl⟩
      · exact (s.raise_reports _ _ _).examines
  · exact ⟨rfl, rfl, rfl, rfl, rfl, rfl, rfl, rfl⟩

section
variable (s : State) {flags : Byte} {window : List Byte}

theorem State.forwardPacket_absent (absent : flags.getLsbD 6 = false) : s.forwardPacket flags window = s := by
  rw [s.forwardPacket_eq, if_pos absent]

theorem State.forwardPacket_bad (present : flags.getLsbD 6 = true) (read : readInbound window = none) :
    s.forwardPacket flags window = s.raise .packetError (.port .room) none := by
  rw [s.forwardPacket_eq, if_neg (by rw [present]; decide), read]

theorem State.forwardPacket_room {p : List Byte} (present : flags.getLsbD 6 = true) (read : readInbound window = some p)
    (room : s.control.forward.length < 8) :
    s.forwardPacket flags window = { s with control := { s.control with forward := s.control.forward ++ [p] } } := by
  rw [s.forwardPacket_eq, if_neg (by rw [present]; decide), read]
  exact if_pos room

theorem State.forwardPacket_full {p : List Byte} (present : flags.getLsbD 6 = true) (read : readInbound window = some p)
    (full : 8 ≤ s.control.forward.length) : s.forwardPacket flags window = s.raise .forwardOverflow (.port .room) none := by
  rw [s.forwardPacket_eq, if_neg (by rw [present]; decide), read]
  exact if_neg (Nat.not_lt.mpr full)

end

/-- Settles O19: the windows that yield a packet, the row, and its fields where nothing comes between the channel blocks. -/
theorem inboundGoodArrivalEffect : Obligations.InboundGoodArrivalEffect := by
  refine ⟨fun first rest short => ?_, readInbound_eq_some, fun s seq flags slots window between running => ?_,
    fun s seq flags slots window running => ?_⟩
  · intro body kind origin field good
    have allowed : good ↔ inboundSizeGood (withCrc (first :: rest)) = true ∧ first.toNat % 16 < 7 :=
      Iff.trans And.comm (and_congr_left' (inboundSizeGood_iff first rest).symm)
    have raised : BitVec.ofNat 8 (16 * kind + origin + 1) = first + 1 := by
      rw [Nat.div_add_mod]
      exact BitVec.eq_of_toNat_eq (by simp)
    rw [readInbound_windowOf first rest short, forwardedBody_cons, raised]
    exact ⟨fun h => if_pos (allowed.mp h), fun h => if_neg fun held => h (allowed.mpr held)⟩
  · intro heard done v u
    rw [exec_inboundGoodArrival s seq flags slots window between running]
    dsimp only
    rw [State.forwardPacket_eq]
    rfl
  · have row := exec_inboundGoodArrival s seq flags slots window [] running
    obtain ⟨work, elsewhere⟩ := s.heard.processSlots_spec slots
    have ports : s.heard.ports = { s.ports with roomSilence := 0, origination := false, skip := false } := rfl
    generalize s.heard.processSlots [] slots = done at row work elsewhere
    have examined := done.2.forwardPacket_examines flags window
    have forward : done.2.control.forward = s.control.forward := work.forward
    refine ⟨_, done.1, row, ?_, elsewhere, fun absent => ?_, fun p present read room => ?_, fun p present read full => ?_,
      fun present read => ?_, examined.replies.trans work.replies, examined.streamer.trans work.streamer,
      examined.references.trans work.references, examined.histories.trans work.histories, examined.decision.trans work.decision,
      examined.comparator.trans work.comparator, examined.free.trans work.free⟩
    · dsimp only
      rw [examined.ports, work.ports, ports]
    · dsimp only
      rw [done.2.forwardPacket_absent absent, forward]
    · dsimp only
      rw [done.2.forwardPacket_room present read (forward ▸ room), ← forward]
    · dsimp only
      rw [done.2.forwardPacket_full present read (forward ▸ full), State.raise_forward]
      exact ⟨forward, State.raise_isSet _ _ _ _⟩
    · dsimp only
      rw [done.2.forwardPacket_bad present read, State.raise_forward]
      exact ⟨forward, State.raise_isSet _ _ _ _⟩

end Sys2Proof.Machine
end


section
/-! The modulator's coefficient is the nearest 24-bit fraction of the tangent (O8): the error of the fixed-point series, the error of the tangent it gives, and how far the true values lie from halfway between two fractions. -/

namespace Sys2Proof.Machine
open Sys2Proof.Safety

/-! ### Numbers in fixed point -/

/-- The number that a whole number stands for with 96 bits after the point. -/
noncomputable def fixReal (x : Int) : ℝ := x / 2 ^ 96

/-- The last place of the fixed-point numbers. -/
noncomputable def lastPlace : ℝ := 1 / 2 ^ 96

theorem lastPlace_pos : 0 < lastPlace := by unfold lastPlace; positivity

theorem abs_ediv_sub_div_le (a : Int) {d : Int} (h : 0 < d) : |((a / d : Int) : ℝ) - (a : ℝ) / d| ≤ 1 := by
  have positive : (0 : ℝ) < d := by exact_mod_cast h
  have low : ((a / d : Int) : ℝ) * d ≤ a := by exact_mod_cast Int.ediv_mul_le a h.ne'
  have high : (a : ℝ) < ((a / d : Int) + 1) * d := by exact_mod_cast Int.lt_ediv_add_one_mul_self a h
  rw [abs_le]
  constructor
  · have := (div_lt_iff₀ positive).mpr high
    linarith
  · have := (le_div_iff₀ positive).mpr low
    linarith

/-- A whole division of a fixed-point number errs by less than the last place. -/
theorem fixReal_ediv (a : Int) {d : Int} (h : 0 < d) : |fixReal (a / d) - fixReal a / d| ≤ lastPlace := by
  have scaled : fixReal (a / d) - fixReal a / d = (((a / d : Int) : ℝ) - (a : ℝ) / d) * lastPlace := by
    unfold fixReal lastPlace
    ring
  rw [scaled, abs_mul, abs_of_pos lastPlace_pos]
  exact mul_le_of_le_one_left lastPlace_pos.le (abs_ediv_sub_div_le a h)

theorem fixOne_cast : (fixOne : ℝ) = 2 ^ 96 := by unfold fixOne; norm_num

theorem fixReal_mul (a b : Int) : |fixReal (a * b / fixOne) - fixReal a * fixReal b| ≤ lastPlace := by
  have product : fixReal a * fixReal b = fixReal (a * b) / fixOne := by
    rw [fixOne_cast]
    unfold fixReal
    push_cast
    ring
  rw [product]
  exact fixReal_ediv (a * b) (by unfold fixOne; norm_num)

theorem fixReal_neg (a : Int) : fixReal (-a) = -fixReal a := by
  unfold fixReal
  push_cast
  ring

/-! ### The alternating series -/

/-- The sum that `fixSeries` approximates, in real numbers. -/
noncomputable def powerSum (y : ℝ) : ℕ → ℕ → ℝ → ℝ
  | 0, _, _ => 0
  | terms + 1, n, t => t + powerSum y terms (n + 2) (-(t * y) / ((n + 1) * (n + 2)))

/-- The error of the square, the error of a term, and two roundings make the error of the next term. -/
theorem nextTerm_error {x2 t : Int} {y τ δ : ℝ} (n : ℕ) (square : |fixReal x2 - y| ≤ lastPlace) (range : |fixReal x2| ≤ 11)
    (term : |fixReal t - τ| ≤ δ) (bound : |τ| ≤ 12) :
    |fixReal (-(t * x2 / fixOne) / ((n + 1) * (n + 2))) - -(τ * y) / ((n + 1) * (n + 2))| ≤
      (11 * δ + 13 * lastPlace) / ((n + 1) * (n + 2)) + lastPlace := by
  have positive : (0 : ℝ) < (n + 1) * (n + 2) := by positivity
  have divided := fixReal_ediv (-(t * x2 / fixOne)) (d := (n + 1) * (n + 2)) (by positivity)
  push_cast at divided
  have product : |fixReal (t * x2 / fixOne) - τ * y| ≤ 11 * δ + 13 * lastPlace := by
    have rounded := fixReal_mul t x2
    have split : fixReal t * fixReal x2 - τ * y = (fixReal t - τ) * fixReal x2 + τ * (fixReal x2 - y) := by ring
    have first : |(fixReal t - τ) * fixReal x2| ≤ δ * 11 := by
      rw [abs_mul]
      exact mul_le_mul term range (abs_nonneg _) ((abs_nonneg _).trans term)
    have second : |τ * (fixReal x2 - y)| ≤ 12 * lastPlace := by
      rw [abs_mul]
      exact mul_le_mul bound square (abs_nonneg _) (by norm_num)
    calc |fixReal (t * x2 / fixOne) - τ * y|
        ≤ |fixReal (t * x2 / fixOne) - fixReal t * fixReal x2| + |fixReal t * fixReal x2 - τ * y| := abs_sub_le _ _ _
      _ ≤ lastPlace + (δ * 11 + 12 * lastPlace) := add_le_add rounded (split ▸ (abs_add_le _ _).trans (add_le_add first second))
      _ = 11 * δ + 13 * lastPlace := by ring
  have turned : fixReal (-(t * x2 / fixOne)) / ((n + 1) * (n + 2)) - -(τ * y) / ((n + 1) * (n + 2)) =
      -((fixReal (t * x2 / fixOne) - τ * y) / ((n + 1) * (n + 2))) := by
    rw [fixReal_neg]
    ring
  have carried : |fixReal (-(t * x2 / fixOne)) / ((n + 1) * (n + 2)) - -(τ * y) / ((n + 1) * (n + 2))| ≤
      (11 * δ + 13 * lastPlace) / ((n + 1) * (n + 2)) := by
    rw [turned, abs_neg, abs_div, abs_of_pos positive]
    exact div_le_div_of_nonneg_right product positive.le
  calc _ ≤ _ := abs_sub_le _ _ _
    _ ≤ lastPlace + _ := add_le_add divided carried
    _ = _ := add_comm _ _

/-- From the third power on a term errs by hardly more than the one before it. -/
theorem fixSeries_error {x2 : Int} {y : ℝ} (square : |fixReal x2 - y| ≤ lastPlace) (range : |fixReal x2| ≤ 11) (low : 0 ≤ y) (high : y ≤ 10)
    (terms n : ℕ) (t : Int) (τ δ : ℝ) (hn : 2 ≤ n) (term : |fixReal t - τ| ≤ δ) (bound : |τ| ≤ 12) :
    |fixReal (fixSeries x2 terms n t) - powerSum y terms n τ| ≤ terms * (δ + 3 * terms * lastPlace) := by
  induction terms generalizing n t τ δ with
  | zero => simp [fixSeries, powerSum, fixReal]
  | succ terms ih =>
    have wide : (12 : ℝ) ≤ (n + 1) * (n + 2) := by
      have : (2 : ℝ) ≤ n := by exact_mod_cast hn
      nlinarith
    have positive : (0 : ℝ) < (n + 1) * (n + 2) := by linarith
    have error : 0 ≤ δ := (abs_nonneg _).trans term
    have small := lastPlace_pos
    have next : |fixReal (-(t * x2 / fixOne) / ((n + 1) * (n + 2))) - -(τ * y) / ((n + 1) * (n + 2))| ≤ δ + 3 * lastPlace := by
      refine (nextTerm_error n square range term bound).trans ?_
      have : (11 * δ + 13 * lastPlace) / ((n + 1) * (n + 2)) ≤ δ + 2 * lastPlace := by
        rw [div_le_iff₀ positive]
        nlinarith
      linarith
    have bounded : |-(τ * y) / ((n + 1) * (n + 2))| ≤ 12 := by
      rw [abs_div, abs_neg, abs_mul, abs_of_nonneg low, abs_of_pos positive, div_le_iff₀ positive]
      nlinarith [abs_nonneg τ]
    have tail := ih (n + 2) _ _ _ (by omega) next bounded
    have split : fixReal (fixSeries x2 (terms + 1) n t) - powerSum y (terms + 1) n τ =
        (fixReal t - τ) + (fixReal (fixSeries x2 terms (n + 2) (-(t * x2 / fixOne) / ((n + 1) * (n + 2)))) -
          powerSum y terms (n + 2) (-(τ * y) / ((n + 1) * (n + 2)))) := by
      simp only [fixSeries, powerSum, fixReal]
      push_cast
      ring
    rw [split]
    refine (abs_add_le _ _).trans ((add_le_add term tail).trans ?_)
    push_cast
    have count : (0 : ℝ) ≤ terms := Nat.cast_nonneg terms
    nlinarith [mul_nonneg count small.le, mul_nonneg count error]

/-- The whole series, its first term read without error. -/
theorem fixSeries_error_first {x2 : Int} {y : ℝ} (square : |fixReal x2 - y| ≤ lastPlace) (range : |fixReal x2| ≤ 11) (low : 0 ≤ y)
    (high : y ≤ 10) (terms n : ℕ) (t : Int) (few : terms ≤ 30) (bound : |fixReal t| ≤ 12)
    (narrow : |fixReal t| * 10 ≤ 12 * ((n + 1) * (n + 2))) :
    |fixReal (fixSeries x2 terms n t) - powerSum y terms n (fixReal t)| ≤ 3000 * lastPlace := by
  have small := lastPlace_pos
  cases terms with
  | zero =>
    have none : fixReal (fixSeries x2 0 n t) - powerSum y 0 n (fixReal t) = 0 := by simp [fixSeries, powerSum, fixReal]
    rw [none, abs_zero]
    positivity
  | succ terms =>
    have positive : (0 : ℝ) < (n + 1) * (n + 2) := by positivity
    have next := nextTerm_error (t := t) (τ := fixReal t) (δ := 0) n square range (by simp) bound
    have eight : (11 * 0 + 13 * lastPlace) / ((n + 1) * (n + 2)) + lastPlace ≤ 8 * lastPlace := by
      have two : (2 : ℝ) ≤ (n + 1) * (n + 2) := by nlinarith [(Nat.cast_nonneg n : (0 : ℝ) ≤ n)]
      have : (11 * 0 + 13 * lastPlace) / ((n + 1) * (n + 2)) ≤ 7 * lastPlace := by
        rw [div_le_iff₀ positive]
        nlinarith
      linarith
    have bounded : |-(fixReal t * y) / ((n + 1) * (n + 2))| ≤ 12 := by
      rw [abs_div, abs_neg, abs_mul, abs_of_nonneg low, abs_of_pos positive, div_le_iff₀ positive]
      nlinarith [abs_nonneg (fixReal t)]
    have tail := fixSeries_error square range low high terms (n + 2) _ _ _ (by omega) (next.trans eight) bounded
    have split : fixReal (fixSeries x2 (terms + 1) n t) - powerSum y (terms + 1) n (fixReal t) =
        fixReal (fixSeries x2 terms (n + 2) (-(t * x2 / fixOne) / ((n + 1) * (n + 2)))) -
          powerSum y terms (n + 2) (-(fixReal t * y) / ((n + 1) * (n + 2))) := by
      simp only [fixSeries, powerSum, fixReal]
      push_cast
      ring
    rw [split]
    refine tail.trans ?_
    have count : (terms : ℝ) ≤ 30 := by exact_mod_cast (by omega : terms ≤ 30)
    have none : (0 : ℝ) ≤ terms := Nat.cast_nonneg terms
    nlinarith [mul_nonneg none small.le, mul_le_mul count count none (by norm_num : (0 : ℝ) ≤ 30)]

/-! ### The power series of sine and cosine -/

/-- A run of the sine's or the cosine's series, as a sum over powers and factorials. -/
theorem powerSum_eq (θ c : ℝ) (terms n : ℕ) :
    powerSum (θ ^ 2) terms n (c * (θ ^ n / n.factorial)) =
      ∑ k ∈ Finset.range terms, c * (-1) ^ k * (θ ^ (n + 2 * k) / (n + 2 * k).factorial) := by
  induction terms generalizing n c with
  | zero => rfl
  | succ terms ih =>
    have next : -(c * (θ ^ n / n.factorial) * θ ^ 2) / ((n + 1) * (n + 2)) = -c * (θ ^ (n + 2) / (n + 2).factorial) := by
      have : (n.factorial : ℝ) ≠ 0 := by exact_mod_cast n.factorial_ne_zero
      have one : (n : ℝ) + 1 ≠ 0 := by positivity
      have two : (n : ℝ) + 2 ≠ 0 := by positivity
      rw [Nat.factorial_succ, Nat.factorial_succ]
      push_cast
      field_simp
      ring
    rw [powerSum, next, ih, Finset.sum_range_succ']
    simp only [pow_zero, mul_one, Nat.mul_zero, Nat.add_zero]
    rw [add_comm]
    congr 1
    refine Finset.sum_congr rfl fun k _ => ?_
    rw [show n + 2 + 2 * k = n + 2 * (k + 1) by ring, pow_succ]
    ring

/-- The first powers of an exponential on the unit circle are those of the cosine and the sine. -/
theorem exp_powers (θ : ℝ) (terms : ℕ) :
    ∑ m ∈ Finset.range (2 * terms), ((θ : ℂ) * Complex.I) ^ m / m.factorial =
      ((powerSum (θ ^ 2) terms 0 1 : ℝ) : ℂ) + ((powerSum (θ ^ 2) terms 1 θ : ℝ) : ℂ) * Complex.I := by
  have cosine := powerSum_eq θ 1 terms 0
  have sine := powerSum_eq θ 1 terms 1
  simp only [pow_zero, Nat.factorial_zero, Nat.cast_one, div_one, mul_one, pow_one, Nat.factorial_one, one_mul] at cosine sine
  rw [cosine, sine]
  clear cosine sine
  induction terms with
  | zero => simp
  | succ terms ih =>
    have even : ((θ : ℂ) * Complex.I) ^ (2 * terms) = (-1) ^ terms * (θ : ℂ) ^ (2 * terms) := by
      rw [mul_pow, pow_mul Complex.I, Complex.I_sq, mul_comm]
    have odd : ((θ : ℂ) * Complex.I) ^ (2 * terms + 1) = (-1) ^ terms * (θ : ℂ) ^ (1 + 2 * terms) * Complex.I := by
      rw [pow_succ, even, add_comm 1, pow_succ (θ : ℂ)]
      ring
    rw [Nat.mul_succ, Finset.sum_range_succ, Finset.sum_range_succ, ih, Finset.sum_range_succ, Finset.sum_range_succ, even, odd,
      add_comm (2 * terms) 1, zero_add]
    push_cast
    ring

theorem taylor_error (θ : ℝ) (terms : ℕ) (h : |θ| ≤ terms) :
    |powerSum (θ ^ 2) terms 0 1 - Real.cos θ| ≤ |θ| ^ (2 * terms) / (2 * terms).factorial * 2 ∧
      |powerSum (θ ^ 2) terms 1 θ - Real.sin θ| ≤ |θ| ^ (2 * terms) / (2 * terms).factorial * 2 := by
  have norm : ‖(θ : ℂ) * Complex.I‖ = |θ| := by simp
  have bound := Complex.exp_bound' (x := (θ : ℂ) * Complex.I) (n := 2 * terms) (by
    rw [norm, div_le_iff₀ (by positivity)]
    push_cast
    linarith)
  rw [exp_powers, norm, Complex.exp_mul_I] at bound
  have parts : Complex.cos θ + Complex.sin θ * Complex.I -
      (((powerSum (θ ^ 2) terms 0 1 : ℝ) : ℂ) + ((powerSum (θ ^ 2) terms 1 θ : ℝ) : ℂ) * Complex.I) =
      ⟨Real.cos θ - powerSum (θ ^ 2) terms 0 1, Real.sin θ - powerSum (θ ^ 2) terms 1 θ⟩ := by
    apply Complex.ext <;> simp [← Complex.ofReal_cos, ← Complex.ofReal_sin]
  rw [parts] at bound
  rw [abs_sub_comm, abs_sub_comm _ (Real.sin θ)]
  exact ⟨(Complex.abs_re_le_norm _).trans bound, (Complex.abs_im_le_norm _).trans bound⟩

/-! ### Sine, cosine and the deviation in fixed point -/

/-- The sine by its series' first terms. -/
def sinTerms (terms : ℕ) (x : Int) : Int := fixSeries (x * x / fixOne) terms 1 x

/-- The cosine by its series' first terms. -/
def cosTerms (terms : ℕ) (x : Int) : Int := fixSeries (x * x / fixOne) terms 0 fixOne

/-- Half the deviation of a sweep position counted from the nearer end, by some terms of the sine. -/
def halfDeviation (terms depth : ℕ) (turn : Int) : Int :=
  fixPi * depth * sinTerms terms (2 * fixPi * turn / 1875) / (36 * fixOne)

/-- The coefficient of a depth and a position, not yet rounded, lies at least 1/4096 off every midpoint between two whole numbers. -/
def offMidpoint (depth turn : ℕ) : Bool :=
  let s := sinTerms 5 (halfDeviation 12 depth turn)
  let c := cosTerms 5 (halfDeviation 12 depth turn)
  decide (2 * c ≤ 4096 * ((16777216 * s + c) % (2 * c)) ∧ 4096 * ((16777216 * s + c) % (2 * c)) ≤ 4095 * (2 * c))

end Sys2Proof.Machine
end


section
/-! The error of the tangent in fixed point, and the coefficient as the nearest fraction (O8). -/

namespace Sys2Proof.Machine
open Sys2Proof.Safety

/-! ### Sine and cosine in fixed point -/

theorem square_error {x : Int} (h : |fixReal x| ≤ 3.16) :
    |fixReal (x * x / fixOne) - fixReal x ^ 2| ≤ lastPlace ∧ |fixReal (x * x / fixOne)| ≤ 11 ∧ fixReal x ^ 2 ≤ 10 := by
  have error : |fixReal (x * x / fixOne) - fixReal x ^ 2| ≤ lastPlace := pow_two (fixReal x) ▸ fixReal_mul x x
  have high : fixReal x ^ 2 ≤ 10 := by
    rw [← sq_abs]
    nlinarith [abs_nonneg (fixReal x)]
  have small : lastPlace ≤ 1 := by unfold lastPlace; norm_num
  obtain ⟨below, above⟩ := abs_le.mp error
  exact ⟨error, abs_le.mpr ⟨by nlinarith [sq_nonneg (fixReal x)], by linarith⟩, high⟩

theorem fixReal_fixOne : fixReal fixOne = 1 := by
  unfold fixReal fixOne
  norm_num

/-- What the rounding of a series and the powers it leaves out amount to, for an angle within a bound. -/
noncomputable def seriesError (bound : ℝ) (terms : ℕ) : ℝ := 3000 * lastPlace + bound ^ (2 * terms) / (2 * terms).factorial * 2

theorem leftOut_le {θ bound : ℝ} (h : |θ| ≤ bound) (terms : ℕ) :
    |θ| ^ (2 * terms) / (2 * terms).factorial * 2 ≤ bound ^ (2 * terms) / (2 * terms).factorial * 2 := by
  have power := pow_le_pow_left₀ (abs_nonneg θ) h (2 * terms)
  have positive : (0 : ℝ) < (2 * terms).factorial := by exact_mod_cast Nat.factorial_pos _
  exact mul_le_mul_of_nonneg_right (div_le_div_of_nonneg_right power positive.le) (by norm_num)

section
variable {x : Int} {bound : ℝ} {terms : ℕ} (range : |fixReal x| ≤ bound) (narrow : bound ≤ 3.16) (many : bound ≤ terms) (few : terms ≤ 30)
include range narrow many few

theorem sinTerms_error : |fixReal (sinTerms terms x) - Real.sin (fixReal x)| ≤ seriesError bound terms := by
  obtain ⟨square, wide, high⟩ := square_error (range.trans narrow)
  have rounding := fixSeries_error_first square wide (sq_nonneg _) high terms 1 x few (by linarith) (by norm_num; linarith)
  have powers := (taylor_error (fixReal x) terms (range.trans many)).2.trans (leftOut_le range terms)
  exact (abs_sub_le _ _ _).trans (add_le_add rounding powers)

theorem cosTerms_error : |fixReal (cosTerms terms x) - Real.cos (fixReal x)| ≤ seriesError bound terms := by
  obtain ⟨square, wide, high⟩ := square_error (range.trans narrow)
  have rounding := fixSeries_error_first square wide (sq_nonneg _) high terms 0 fixOne few (by rw [fixReal_fixOne]; norm_num)
    (by rw [fixReal_fixOne]; norm_num)
  rw [fixReal_fixOne] at rounding
  have powers := (taylor_error (fixReal x) terms (range.trans many)).1.trans (leftOut_le range terms)
  exact (abs_sub_le _ _ _).trans (add_le_add rounding powers)

end

/-! ### The deviation -/

theorem fixPi_error : |fixReal fixPi - Real.pi| ≤ 1e-20 := by
  have low := Real.pi_gt_d20
  have high := Real.pi_lt_d20
  have value : (3.14159265358979323846 : ℝ) ≤ fixReal fixPi ∧ fixReal fixPi ≤ 3.14159265358979323847 := by
    unfold fixReal fixPi
    constructor <;> norm_num
  rw [abs_le]
  constructor <;> linarith [value.1, value.2]

/-- Half the deviation, in real numbers. -/
noncomputable def trueHalfDeviation (depth : ℕ) (turn : Int) : ℝ := depth * (Real.pi / 36) * Real.sin (2 * Real.pi * turn / 1875)

theorem abs_turn_le {turn : Int} (h : turn.natAbs ≤ 937) : |(turn : ℝ)| ≤ 937 := by
  rw [← Int.cast_abs, ← Int.natCast_natAbs]
  exact_mod_cast h

/-- The sweep's angle in fixed point. -/
theorem angle_error {turn : Int} (h : turn.natAbs ≤ 937) : |fixReal (2 * fixPi * turn / 1875) - 2 * Real.pi * turn / 1875| ≤ 2e-20 := by
  have bound := abs_turn_le h
  have rounded := fixReal_ediv (2 * fixPi * turn) (d := 1875) (by norm_num)
  have whole : fixReal (2 * fixPi * turn) = 2 * fixReal fixPi * turn := by
    unfold fixReal
    push_cast
    ring
  have carried : |2 * fixReal fixPi * turn / (1875 : Int) - 2 * Real.pi * turn / 1875| ≤ 1e-20 := by
    have factored : 2 * fixReal fixPi * turn / (1875 : Int) - 2 * Real.pi * turn / 1875 = (fixReal fixPi - Real.pi) * (2 * turn / 1875) := by
      push_cast
      ring
    have part : |2 * (turn : ℝ) / 1875| ≤ 1 := by
      rw [abs_div, abs_mul, abs_of_pos (by norm_num : (0 : ℝ) < 1875), abs_two, div_le_one (by norm_num)]
      linarith
    rw [factored, abs_mul]
    exact (mul_le_mul fixPi_error part (abs_nonneg _) (by norm_num)).trans (by norm_num)
  rw [whole] at rounded
  have small : lastPlace ≤ 1e-20 := by unfold lastPlace; norm_num
  exact (abs_sub_le _ _ _).trans ((add_le_add (rounded.trans small) carried).trans (by norm_num))

theorem abs_sin_sub_sin_le (x y : ℝ) : |Real.sin x - Real.sin y| ≤ |x - y| := by
  simpa [Real.dist_eq] using Real.lipschitzWith_sin.dist_le_mul x y

theorem abs_cos_sub_cos_le (x y : ℝ) : |Real.cos x - Real.cos y| ≤ |x - y| := by
  simpa [Real.dist_eq] using Real.lipschitzWith_cos.dist_le_mul x y

theorem angle_bound {turn : Int} (h : turn.natAbs ≤ 937) : |fixReal (2 * fixPi * turn / 1875)| ≤ 3.15 := by
  have bound := abs_turn_le h
  have exact_bound : |2 * Real.pi * turn / 1875| ≤ 3.145 := by
    rw [abs_div, abs_mul, abs_of_pos (by norm_num : (0 : ℝ) < 1875), abs_of_pos (by positivity : 0 < 2 * Real.pi), div_le_iff₀ (by norm_num)]
    nlinarith [Real.pi_lt_d4, Real.pi_pos]
  have error := angle_error h
  have split := abs_sub_abs_le_abs_sub (fixReal (2 * fixPi * turn / 1875)) (2 * Real.pi * turn / 1875)
  norm_num at error ⊢
  linarith

section
variable {depth : ℕ} {turn : Int} {terms : ℕ} (few : terms ≤ 30) (many : 12 ≤ terms) (leftOut : seriesError 3.15 terms ≤ 4e-12)
  (shallow : depth ≤ 3) (h : turn.natAbs ≤ 937)
include few many leftOut shallow h

theorem halfDeviation_error : |fixReal (halfDeviation terms depth turn) - trueHalfDeviation depth turn| ≤ 1.2e-12 := by
  have manyReal : (12 : ℝ) ≤ terms := by exact_mod_cast many
  have depthReal : (depth : ℝ) ≤ 3 := by exact_mod_cast shallow
  have depth0 : (0 : ℝ) ≤ depth := Nat.cast_nonneg _
  set s := sinTerms terms (2 * fixPi * turn / 1875) with hs
  have series := sinTerms_error (angle_bound h) (by norm_num) (by linarith) few
  have moved := (abs_sin_sub_sin_le (fixReal (2 * fixPi * turn / 1875)) (2 * Real.pi * turn / 1875)).trans (angle_error h)
  have sine : |fixReal s - Real.sin (2 * Real.pi * turn / 1875)| ≤ 4.1e-12 :=
    (abs_sub_le _ _ _).trans ((add_le_add (series.trans leftOut) moved).trans (by norm_num))
  have rounded := fixReal_ediv (fixPi * depth * s) (d := 36 * fixOne) (by unfold fixOne; norm_num)
  have whole : fixReal (fixPi * depth * s) / ((36 * fixOne : Int) : ℝ) = fixReal fixPi * fixReal s * (depth / 36) := by
    push_cast
    rw [fixOne_cast]
    unfold fixReal
    push_cast
    ring
  have product : |fixReal fixPi * fixReal s - Real.pi * Real.sin (2 * Real.pi * turn / 1875)| ≤ 1.35e-11 := by
    have split : fixReal fixPi * fixReal s - Real.pi * Real.sin (2 * Real.pi * turn / 1875) =
        fixReal fixPi * (fixReal s - Real.sin (2 * Real.pi * turn / 1875)) + (fixReal fixPi - Real.pi) * Real.sin (2 * Real.pi * turn / 1875) := by
      ring
    have fixed : |fixReal fixPi| ≤ 3.15 := by
      have := (abs_sub_abs_le_abs_sub (fixReal fixPi) Real.pi).trans fixPi_error
      rw [abs_of_pos Real.pi_pos] at this
      norm_num at this ⊢
      linarith [Real.pi_lt_d4]
    have first : |fixReal fixPi * (fixReal s - Real.sin (2 * Real.pi * turn / 1875))| ≤ 3.15 * 4.1e-12 := by
      rw [abs_mul]
      exact mul_le_mul fixed sine (abs_nonneg _) (by norm_num)
    have second : |(fixReal fixPi - Real.pi) * Real.sin (2 * Real.pi * turn / 1875)| ≤ 1e-20 * 1 := by
      rw [abs_mul]
      exact mul_le_mul fixPi_error (Real.abs_sin_le_one _) (abs_nonneg _) (by norm_num)
    rw [split]
    exact (abs_add_le _ _).trans ((add_le_add first second).trans (by norm_num))
  have scaled : |fixReal fixPi * fixReal s * (depth / 36) - trueHalfDeviation depth turn| ≤ 1.35e-11 * (3 / 36) := by
    have factored : fixReal fixPi * fixReal s * (depth / 36) - trueHalfDeviation depth turn =
        (fixReal fixPi * fixReal s - Real.pi * Real.sin (2 * Real.pi * turn / 1875)) * (depth / 36) := by
      unfold trueHalfDeviation
      ring
    rw [factored, abs_mul, abs_of_nonneg (by positivity : (0 : ℝ) ≤ depth / 36)]
    exact mul_le_mul product (by linarith) (by positivity) (by norm_num)
  rw [whole] at rounded
  have small : lastPlace ≤ 1e-20 := by unfold lastPlace; norm_num
  refine (abs_sub_le _ _ _).trans ((add_le_add (rounded.trans small) scaled).trans (by norm_num))

end

theorem trueHalfDeviation_bound {depth : ℕ} {turn : Int} (shallow : depth ≤ 3) : |trueHalfDeviation depth turn| ≤ 0.2625 := by
  have depthReal : (depth : ℝ) ≤ 3 := by exact_mod_cast shallow
  have depth0 : (0 : ℝ) ≤ depth := Nat.cast_nonneg _
  have factor : (depth : ℝ) * (Real.pi / 36) ≤ 0.2625 := by
    norm_num
    nlinarith [Real.pi_lt_d4, Real.pi_pos]
  unfold trueHalfDeviation
  rw [abs_mul, abs_of_nonneg (by positivity : (0 : ℝ) ≤ depth * (Real.pi / 36))]
  exact (mul_le_of_le_one_right (by positivity) (Real.abs_sin_le_one _)).trans factor

/-! ### The tangent -/

theorem cos_trueHalfDeviation {depth : ℕ} {turn : Int} (shallow : depth ≤ 3) : 0.965 ≤ Real.cos (trueHalfDeviation depth turn) := by
  have bound := trueHalfDeviation_bound (turn := turn) shallow
  have square : trueHalfDeviation depth turn ^ 2 ≤ 0.2625 ^ 2 := by
    rw [← sq_abs]
    exact pow_le_pow_left₀ (abs_nonneg _) bound 2
  refine le_trans ?_ Real.one_sub_sq_div_two_le_cos
  norm_num at square ⊢
  linarith

/-- A quotient near a tangent: its terms within 3e-12 of a sine and of a cosine that is not small. -/
theorem quotient_error {s c φ : ℝ} (sine : |s - Real.sin φ| ≤ 3e-12) (cosine : |c - Real.cos φ| ≤ 3e-12) (large : 0.965 ≤ Real.cos φ) :
    0 < c ∧ |8388608 * (s / c) - 8388608 * Real.tan φ| ≤ 1e-4 := by
  have c96 : 0.96 ≤ c := by
    have := (abs_le.mp cosine).1
    norm_num at this large ⊢
    linarith
  have c0 : 0 < c := lt_of_lt_of_le (by norm_num) c96
  have k0 : 0 < Real.cos φ := lt_of_lt_of_le (by norm_num) large
  refine ⟨c0, ?_⟩
  have crossed : 8388608 * (s / c) - 8388608 * Real.tan φ =
      8388608 * (((s - Real.sin φ) * Real.cos φ - (c - Real.cos φ) * Real.sin φ) / (c * Real.cos φ)) := by
    rw [Real.tan_eq_sin_div_cos]
    field_simp
    ring
  have first : |(s - Real.sin φ) * Real.cos φ| ≤ 3e-12 * 1 := by
    rw [abs_mul]
    exact mul_le_mul sine (Real.abs_cos_le_one φ) (abs_nonneg _) (by norm_num)
  have second : |(c - Real.cos φ) * Real.sin φ| ≤ 3e-12 * 1 := by
    rw [abs_mul]
    exact mul_le_mul cosine (Real.abs_sin_le_one φ) (abs_nonneg _) (by norm_num)
  have denominator : (0.92 : ℝ) ≤ c * Real.cos φ := le_trans (by norm_num) (mul_le_mul c96 large (by norm_num) c0.le)
  rw [crossed, abs_mul, abs_div, abs_of_pos (mul_pos c0 k0), abs_of_pos (by norm_num : (0 : ℝ) < 8388608)]
  have numerator : |(s - Real.sin φ) * Real.cos φ - (c - Real.cos φ) * Real.sin φ| ≤ 6e-12 :=
    (abs_sub _ _).trans ((add_le_add first second).trans (by norm_num))
  calc 8388608 * (|(s - Real.sin φ) * Real.cos φ - (c - Real.cos φ) * Real.sin φ| / (c * Real.cos φ))
      ≤ 8388608 * (6e-12 / 0.92) := by
        refine mul_le_mul_of_nonneg_left ?_ (by norm_num)
        exact div_le_div₀ (by norm_num) numerator (by norm_num) denominator
    _ ≤ 1e-4 := by norm_num

theorem fixReal_div (a b : Int) : fixReal a / fixReal b = (a : ℝ) / b := by
  unfold fixReal
  exact div_div_div_cancel_right₀ (by positivity) _ _

/-- The coefficient before its rounding, by enough terms of the series, is near the tangent. -/
theorem tangent_error {outer inner depth : ℕ} {turn : Int} (few : outer ≤ 30) (many : 12 ≤ outer) (leftOut : seriesError 3.15 outer ≤ 4e-12)
    (fewInner : inner ≤ 30) (manyInner : 1 ≤ inner) (leftOutInner : seriesError 0.263 inner ≤ 1.5e-12) (shallow : depth ≤ 3)
    (h : turn.natAbs ≤ 937) :
    0 < cosTerms inner (halfDeviation outer depth turn) ∧
      |8388608 * ((sinTerms inner (halfDeviation outer depth turn) : ℝ) / cosTerms inner (halfDeviation outer depth turn)) -
        8388608 * Real.tan (trueHalfDeviation depth turn)| ≤ 1e-4 := by
  have deviation := halfDeviation_error few many leftOut shallow h
  have bound := trueHalfDeviation_bound (turn := turn) shallow
  have manyReal : (1 : ℝ) ≤ inner := by exact_mod_cast manyInner
  set x := halfDeviation outer depth turn
  have range : |fixReal x| ≤ 0.263 := by
    have := abs_sub_abs_le_abs_sub (fixReal x) (trueHalfDeviation depth turn)
    norm_num at this deviation bound ⊢
    linarith
  have sine : |fixReal (sinTerms inner x) - Real.sin (trueHalfDeviation depth turn)| ≤ 3e-12 :=
    (abs_sub_le _ _ _).trans ((add_le_add ((sinTerms_error range (by norm_num) (by norm_num; linarith) fewInner).trans leftOutInner)
      ((abs_sin_sub_sin_le _ _).trans deviation)).trans (by norm_num))
  have cosine : |fixReal (cosTerms inner x) - Real.cos (trueHalfDeviation depth turn)| ≤ 3e-12 :=
    (abs_sub_le _ _ _).trans ((add_le_add ((cosTerms_error range (by norm_num) (by norm_num; linarith) fewInner).trans leftOutInner)
      ((abs_cos_sub_cos_le _ _).trans deviation)).trans (by norm_num))
  obtain ⟨positive, near⟩ := quotient_error sine cosine (cos_trueHalfDeviation shallow)
  rw [fixReal_div] at near
  refine ⟨?_, near⟩
  have scaled : (0 : ℝ) < cosTerms inner x := by
    unfold fixReal at positive
    exact (div_pos_iff_of_pos_right (by positivity)).mp positive
  exact_mod_cast scaled

/-! ### The nearest whole number -/

theorem offMidpoint_all {depth : ℕ} (low : 1 ≤ depth) (high : depth ≤ 3) : ∀ turn < 938, offMidpoint depth turn = true := by
  have one : ∀ turn < 938, offMidpoint 1 turn = true := by decide +kernel
  have two : ∀ turn < 938, offMidpoint 2 turn = true := by decide +kernel
  have three : ∀ turn < 938, offMidpoint 3 turn = true := by decide +kernel
  interval_cases depth
  · exact one
  · exact two
  · exact three

/-- The true coefficient of a position from the sweep's start lies well within half of a whole number. -/
theorem trueCoefficient_near {depth turn : ℕ} (low : 1 ≤ depth) (high : depth ≤ 3) (h : turn ≤ 937) :
    ∃ q : Int, |8388608 * Real.tan (trueHalfDeviation depth turn) - q| ≤ 1 / 2 - 1 / 4096 + 1e-4 := by
  obtain ⟨positive, near⟩ := tangent_error (outer := 12) (inner := 5) (depth := depth) (turn := turn) (by norm_num) (by norm_num)
    (by unfold seriesError lastPlace; norm_num [Nat.factorial]) (by norm_num) (by norm_num)
    (by unfold seriesError lastPlace; norm_num [Nat.factorial]) high (by omega)
  have off := offMidpoint_all low high turn (by omega)
  unfold offMidpoint at off
  dsimp only at off
  set s := sinTerms 5 (halfDeviation 12 depth turn)
  set c := cosTerms 5 (halfDeviation 12 depth turn)
  obtain ⟨above, below⟩ := of_decide_eq_true off
  set q := (16777216 * s + c) / (2 * c)
  set r := (16777216 * s + c) % (2 * c)
  have division : 2 * c * q + r = 16777216 * s + c := Int.mul_ediv_add_emod _ _
  have positiveR : (0 : ℝ) < c := by exact_mod_cast positive
  have divisionR : 2 * (c : ℝ) * q + r = 16777216 * s + c := by exact_mod_cast division
  have aboveR : 2 * (c : ℝ) ≤ 4096 * r := by exact_mod_cast above
  have belowR : 4096 * (r : ℝ) ≤ 4095 * (2 * c) := by exact_mod_cast below
  refine ⟨q, ?_⟩
  have ratio : 8388608 * ((s : ℝ) / c) - q = r / (2 * c) - 1 / 2 := by
    field_simp
    linarith
  have inside : |8388608 * ((s : ℝ) / c) - q| ≤ 1 / 2 - 1 / 4096 := by
    have lowest : 1 / 4096 ≤ (r : ℝ) / (2 * c) := by
      rw [le_div_iff₀ (by positivity)]
      linarith
    have highest : (r : ℝ) / (2 * c) ≤ 1 - 1 / 4096 := by
      rw [div_le_iff₀ (by positivity)]
      linarith
    rw [ratio, abs_le]
    constructor <;> linarith
  rw [abs_sub_comm] at near
  have sum := (abs_sub_le (8388608 * Real.tan (trueHalfDeviation depth turn)) (8388608 * ((s : ℝ) / c)) q).trans (add_le_add near inside)
  linarith

theorem trueHalfDeviation_neg (depth : ℕ) (turn : Int) : trueHalfDeviation depth (-turn) = -trueHalfDeviation depth turn := by
  unfold trueHalfDeviation
  push_cast
  rw [show 2 * Real.pi * -(turn : ℝ) / 1875 = -(2 * Real.pi * turn / 1875) by ring, Real.sin_neg]
  ring

/-- The same for a position on either side: the deviation is odd. -/
theorem trueCoefficient_near_signed {depth : ℕ} {turn : Int} (low : 1 ≤ depth) (high : depth ≤ 3) (h : turn.natAbs ≤ 937) :
    ∃ q : Int, |8388608 * Real.tan (trueHalfDeviation depth turn) - q| ≤ 1 / 2 - 1 / 4096 + 1e-4 := by
  obtain ⟨q, near⟩ := trueCoefficient_near low high h
  rcases Int.natAbs_eq turn with e | e
  · exact ⟨q, e ▸ near⟩
  · refine ⟨-q, ?_⟩
    rw [e, trueHalfDeviation_neg, Real.tan_neg, Int.cast_neg, ← abs_neg]
    have turned : -(8388608 * -Real.tan (trueHalfDeviation depth (turn.natAbs : Int)) - -(q : ℝ)) =
        8388608 * Real.tan (trueHalfDeviation depth (turn.natAbs : Int)) - q := by ring
    rw [turned]
    exact near

/-- The position counted from the sweep's nearer end. -/
def turnOf (sweep : ℕ) : Int := if sweep ≤ 937 then sweep else (sweep : Int) - 1875

theorem turnOf_natAbs {sweep : ℕ} (h : sweep < 1875) : (turnOf sweep).natAbs ≤ 937 := by
  unfold turnOf
  split <;> omega

/-- A whole sweep is a whole turn of the sine. -/
theorem trueHalfDeviation_turnOf (depth sweep : ℕ) :
    trueHalfDeviation depth (turnOf sweep) = depth * (Real.pi / 36) * Real.sin (2 * Real.pi * sweep / 1875) := by
  unfold trueHalfDeviation turnOf
  split
  · push_cast
    rfl
  · push_cast
    rw [show 2 * Real.pi * ((sweep : ℝ) - 1875) / 1875 = 2 * Real.pi * sweep / 1875 - 2 * Real.pi by ring, Real.sin_sub_two_pi]

theorem ditherCoefficient_eq (depth sweep : ℕ) :
    ditherCoefficient depth sweep =
      roundDiv (8388608 * sinTerms 30 (halfDeviation 30 depth (turnOf sweep))) (cosTerms 30 (halfDeviation 30 depth (turnOf sweep))).toNat := rfl

/-- A rounded quotient is within half of the quotient. -/
theorem abs_roundDiv_sub_le (num den : Int) (h : 0 < den) : |(roundDiv num den.toNat : ℝ) - (num : ℝ) / den| ≤ 1 / 2 := by
  have positive : (0 : ℝ) < den := by exact_mod_cast h
  have whole : ((den.toNat : Int)) = den := Int.toNat_of_nonneg h.le
  obtain ⟨near, -⟩ := roundDiv_spec num den.toNat (by omega)
  rw [whole] at near
  have nearReal : 2 * |(num : ℝ) - roundDiv num den.toNat * den| ≤ den := by
    have signed : 2 * |num - roundDiv num den.toNat * den| ≤ den := by
      rw [← Int.natCast_natAbs]
      omega
    exact_mod_cast signed
  have scaled : (roundDiv num den.toNat : ℝ) - (num : ℝ) / den = -((num - roundDiv num den.toNat * den) / den) := by
    field_simp
    ring
  rw [scaled, abs_neg, abs_div, abs_of_pos positive, div_le_iff₀ positive]
  linarith

/-- Two whole numbers about one number: where the nearer lies clear of the midpoint, the other is the same. -/
theorem eq_of_near {v : ℝ} {a b : Int} (ha : |v - a| ≤ 1 / 2 - 1 / 4096 + 1e-4) (hb : |(b : ℝ) - v| ≤ 1 / 2 + 1e-4) : b = a := by
  have apart := (abs_sub_le (b : ℝ) v a).trans (add_le_add hb ha)
  have close : |(b : ℝ) - a| < 1 := lt_of_le_of_lt apart (by norm_num)
  have whole : |b - a| < 1 := by exact_mod_cast close
  exact sub_eq_zero.mp (Int.abs_lt_one_iff.mp whole)

/-- Settles O8: the true value is clear of every midpoint, and the coefficient is within half of it and a little. -/
theorem ditherCoefficientIsNearest : Obligations.DitherCoefficientIsNearest := by
  intro depth sweep low high inside deviation
  have half : deviation / 2 = trueHalfDeviation depth (turnOf sweep) := by
    rw [trueHalfDeviation_turnOf]
    ring
  obtain ⟨positive, near⟩ := tangent_error (outer := 30) (inner := 30) (depth := depth) (turn := turnOf sweep) (by norm_num) (by norm_num)
    (by unfold seriesError lastPlace; norm_num [Nat.factorial]) (by norm_num) (by norm_num)
    (by unfold seriesError lastPlace; norm_num [Nat.factorial]) high (turnOf_natAbs inside)
  obtain ⟨q, clear⟩ := trueCoefficient_near_signed low high (turnOf_natAbs inside)
  have rounded := abs_roundDiv_sub_le (8388608 * sinTerms 30 (halfDeviation 30 depth (turnOf sweep))) _ positive
  push_cast at rounded
  rw [mul_div_assoc] at rounded
  have within := (abs_sub_le _ _ _).trans (add_le_add rounded near)
  have same : ditherCoefficient depth sweep = q := eq_of_near clear (ditherCoefficient_eq depth sweep ▸ within)
  rw [half, same, abs_sub_comm]
  exact clear.trans (by norm_num)

end Sys2Proof.Machine
end

section
/-! Estimation and adaptation (chapter 3): the aligned samples, the move of one path's background set, and the commands that freeze and load. -/

namespace Sys2Proof.Machine

open Sys2Proof.Safety

/-! ### The aligned reference samples (R50) -/

/-- Settles O33: value 64 + n - j of the run, read forwards from a tap and backwards from an output sample. -/
theorem alignedSamples : Obligations.AlignedSamples := fun _ age n j blocks hn hj =>
  ⟨alignedForSample_getElem? blocks age n j hn hj, alignedForTap_getElem? blocks age n j hn hj⟩

/-! ### The adaptation of one path (R54 to R57) -/

theorem spanPower_eq (history : List Slot) (bulk length : Nat) :
    spanPower history bulk length = ((List.range length).map fun k => squareSum (history.getD (bulk + k) silence)).sum := by
  induction length with
  | zero => rfl
  | succ n ih => rw [List.range_succ, List.map_append, List.sum_append, ← ih]; rfl

theorem adaptDivisor_pos (history : List Slot) (bulk exponent : Nat) {length : Nat} (h : 0 < length) :
    0 < adaptDivisor history bulk length exponent := by
  unfold adaptDivisor
  positivity

/-- A path's reference is trusted when its record is read without a mismatch; a path without one has nothing to mistrust (R40). -/
theorem State.readForBlock_refGood_iff (s : State) (p : Nat) :
    (s.readForBlock p).refGood = true ↔ ∀ k, (s.path p).reference = some k → (s.reference k).parityBad = false := by
  cases reference : (s.path p).reference with
  | none => simp [State.readForBlock, reference, Reference.initial]
  | some k => simp [State.readForBlock, reference]

theorem PathRead.adapts_iff (r : PathRead) (frozen : Bool) (action : Action) :
    r.adapts frozen action = true ↔
      action.adapt = true ∧ r.record.state = .ready ∧ r.record.readHeld = false ∧ frozen = false ∧ r.refGood = true := by
  simp [PathRead.adapts, and_assoc]

/-- The move by a path's moving history: none where the span is silent, the history's own elsewhere (R55; log 34). -/
theorem PathRead.movedTaps_movingHistory (r : PathRead) {divisor : Nat} (h : 0 < divisor) (residual : List Int) (age : Nat) (taps : Slot) :
    movedTaps divisor residual (alignedRun r.movingHistory age) taps =
      if spanPower r.history r.bulk r.record.length = 0 then taps else movedTaps divisor residual (alignedRun r.history age) taps := by
  unfold PathRead.movingHistory
  split
  · exact movedTaps_silent divisor h residual age taps
  · rfl

/-- Settles O35: the path's writes along its chain, its span power as a sum, and the silent span apart. -/
theorem adaptationEffect : Obligations.AdaptationEffect := by
  intro s frozen action residual p r trusted t adapts
  have judged : (s.readForBlock p).adapts frozen action = true ↔ adapts := by
    rw [PathRead.adapts_iff, State.readForBlock_refGood_iff]
    rfl
  refine ⟨fun idle => if_neg (mt judged.mp idle), fun moving wf nodup => ?_⟩
  intro bulk history power divisor
  have span : spanPower history bulk r.chain.length = power := spanPower_eq history bulk r.chain.length
  have scaled : adaptDivisor history bulk r.chain.length (r.step + action.stepScale) = divisor := by
    unfold adaptDivisor
    rw [span]
  have read : (s.readForBlock p).history = history := s.pathHistory_eq r
  obtain ⟨cells, moved, -, written, others⟩ :=
    State.moveChain_spec r.background divisor residual (s.readForBlock p).movingHistory r.chain s bulk wf nodup
  refine ⟨cells, ?_, fun k n listed => ?_, others⟩
  · rw [← moved, ← scaled, ← read]
    exact if_pos (judged.mpr moving)
  · have positive : 0 < divisor :=
      scaled ▸ adaptDivisor_pos history bulk (r.step + action.stepScale) (List.length_pos_of_mem (List.mem_of_getElem? listed))
    have apart := (s.readForBlock p).movedTaps_movingHistory positive residual (bulk + k) ((s.pool.cells.read n).get r.background).read
    rw [read, show spanPower history (s.readForBlock p).bulk (s.readForBlock p).record.length = power from span] at apart
    rw [written k n listed, apart]
    rfl

/-! ### Freezing and loading (R62, R64, R65) -/

/-- A comparison state reset of a record just put, which keeps the record's pending promote (R68). -/
theorem State.putChannel_resetComparison (s : State) (c : Nat) (x : Channel) :
    (s.putChannel c x).resetComparison c =
      s.putChannel c { x with comparison := comparisonReset x.comparison x.comparison.pendingPromote } := by
  unfold State.resetComparison State.putComparison
  rw [State.putChannel_putChannel]
  refine congrArg s.setChannels (List.set_getD_congr _ _ _ _ fun hc => ?_)
  rw [s.channel_putChannel_self c x hc]
  rfl

/-- FREEZE CHANNEL carried out, field by field (R62). -/
theorem State.freeze_eq (s : State) (c : Nat) (value : Bool) :
    s.freeze c value =
      if (s.channel c).frozen = value then s
      else
        s.putChannel c
          { s.channel c with
            frozen := value
            comparison := comparisonReset (s.channel c).comparison (if value then false else (s.channel c).comparison.pendingPromote) } := by
  unfold State.freeze
  dsimp only
  rw [State.putChannel_resetComparison, State.putChannel_resetComparisonFully]
  cases value <;> rfl

/-- The path's owner channel is frozen, as a proposition (R64). -/
theorem State.ownerFrozen_iff (s : State) (p : Nat) :
    s.ownerFrozen p = true ↔ ∃ c, (s.path p).owner = some c ∧ (s.channel c).frozen = true := by
  unfold State.ownerFrozen
  cases (s.path p).owner <;> simp

/-- A value that FREEZE CHANNEL takes is the one the flag has: 1 where it is set, 0 where it is clear (R62). -/
theorem frozen_eq_decide_iff {value : Byte} (binary : ¬1 < value.toNat) (frozen : Bool) :
    frozen = decide (value = 1) ↔ (value = 1 ∧ frozen = true) ∨ (value = 0 ∧ frozen = false) := by
  have cases01 : value = 0 ∨ value = 1 := by bv_omega
  rcases cases01 with rfl | rfl <;> simp

/-- Settles O45: the freeze field by field, and the checks of R64 one after another before one set is written. -/
theorem freezeAndLoadEffect : Obligations.FreezeAndLoadEffect := by
  refine ⟨fun s tag channel value accepting => ?_, fun s tag path index taps accepting => ?_⟩
  · intro ch
    refine Eq.trans (exec_taken (i := .freezeChannel tag channel value) accepting rfl) ?_
    by_cases out : 23 < channel.toNat ∨ 1 < value.toNat
    · rw [if_pos out, if_pos out]
      rfl
    · rw [if_neg out, if_neg out, State.freeze_eq]
      simp only [frozen_eq_decide_iff (fun h => out (.inr h)), decide_eq_true_eq, ch]
      split <;> rfl
  · intro r result loadable
    have ran : result = _ := exec_taken accepting rfl
    have checked : (s.path path.toNat).state = .ready ∧ s.ownerFrozen path.toNat = true ↔ loadable :=
      and_congr_right fun _ => s.ownerFrozen_iff path.toNat
    refine ⟨fun out => ?_, fun inRange unready => ?_, fun inRange load held => ?_, fun inRange load free beyond => ?_,
      fun n inRange load free listed wf => ?_⟩
    · rw [ran, if_pos out]
      rfl
    · rw [ran, if_neg (Nat.not_lt.mpr inRange), if_pos (mt checked.mp unready)]
      rfl
    · rw [ran, if_neg (Nat.not_lt.mpr inRange), if_neg (not_not.mpr (checked.mpr load)), if_pos held]
      rfl
    · have absent : (s.path path.toNat).partitionAt index.toNat = none := List.getElem?_eq_none beyond
      rw [ran, if_neg (Nat.not_lt.mpr inRange), if_neg (not_not.mpr (checked.mpr load)), if_neg (ne_true_of_eq_false free), absent]
      rfl
    · have found : (s.path path.toNat).partitionAt index.toNat = some n := listed
      rw [ran, if_neg (Nat.not_lt.mpr inRange), if_neg (not_not.mpr (checked.mpr load)), if_neg (ne_true_of_eq_false free), found]
      refine ⟨_, rfl, ?_, ?_, fun k other => PartitionStore.read_write_ne _ _ _ _ wf other⟩
      · rw [PartitionStore.read_write_self _ _ _ wf]
        exact Partition.get_put_self _ _ _
      · rw [PartitionStore.read_write_self _ _ _ wf]
        exact Partition.get_put_other _ _ _

end Sys2Proof.Machine
end

section
/-! The seed engine's step (chapter 5): one partition of the budget, a request in service up to its end, and the step's own grant. -/

namespace Sys2Proof.Machine

open Sys2Proof.Safety

/-! ### One partition of the budget (R59, R86 to R88) -/

theorem CoeffSet.read_good {c : CoeffSet} (h : c.upset = false) : c.read = c.taps := if_neg (ne_true_of_eq_false h)

/-- What a request makes of one partition: zeros in both sets, or the live set's taps as read in the background set (R87). -/
def SeedRequest.rewritten (q : SeedRequest) (live : SetId) (old : Partition) : Partition :=
  match q.kind with
  | .clear => Partition.zero
  | .copy => old.put live.other { taps := (old.get live).read, upset := false }

/-- A COPY whose live set is read with a mismatch raises COEFF_PARITY; nothing else does (R59, R87). -/
def State.seedMismatch (s : State) (q : SeedRequest) (source : CoeffSet) : State :=
  if q.kind = .copy ∧ source.upset = true then s.raise .coeffParity (.path q.path (q.first + q.done)) none else s

theorem State.seedMismatch_reports (s : State) (q : SeedRequest) (source : CoeffSet) : Reports s (s.seedMismatch q source) := by
  unfold State.seedMismatch
  split
  · exact s.raise_reports _ _ _
  · exact Reports.refl s

theorem State.seedMismatch_trusted (s : State) (q : SeedRequest) (source : CoeffSet) (trusted : q.kind = .copy → source.upset = false) :
    s.seedMismatch q source = s := if_neg fun h => by simp [trusted h.1] at h

theorem State.rewritePartition_eq (s : State) (q : SeedRequest) {n : Nat} (listed : (s.path q.path).chain[q.first + q.done]? = some n) :
    s.rewritePartition q =
      (s.writePartition n (q.rewritten (s.path q.path).live (s.pool.cells.read n))).seedMismatch q
        ((s.pool.cells.read n).get (s.path q.path).live) := by
  unfold State.rewritePartition PathRecord.partitionAt SeedRequest.rewritten State.seedMismatch
  dsimp only
  rw [listed]
  cases q.kind with
  | clear => rfl
  | copy => exact if_congr (by simp [State.coeffs]) rfl rfl

/-- A partition of the budget spent on a request that goes on (R86). -/
theorem State.seedOne_goesOn (s : State) {q : SeedRequest} {rest : List SeedRequest} (queue : s.seed.queue = q :: rest)
    (more : q.done + 1 < q.count) : s.seedOne = (s.rewritePartition q).setQueue ({ q with done := q.done + 1 } :: rest) := by
  unfold State.seedOne
  rw [queue]
  exact if_neg (Nat.not_le.mpr more)

/-- A partition of the budget spent on a request that it completes (R86, R88). -/
theorem State.seedOne_completes (s : State) {q : SeedRequest} {rest : List SeedRequest} (queue : s.seed.queue = q :: rest)
    (last : q.done + 1 = q.count) : s.seedOne = ((s.rewritePartition q).setQueue rest).completeRequest q := by
  unfold State.seedOne
  rw [queue]
  exact if_pos last.ge

/-- A completed request: its path READY, and the PATH_READY notice after a CLEAR where the queue has room (R88). -/
theorem State.completeRequest_eq (s : State) (q : SeedRequest) (room : s.control.notices.length < 8) :
    s.completeRequest q =
      { s with
        paths := s.paths.set q.path { s.path q.path with state := .ready }
        control :=
          { s.control with
            notices := s.control.notices ++ (if q.kind = .clear ∧ s.control.enablePath = true then [.pathReady q.path] else []) } } := by
  have told : (s.putPath q.path { s.path q.path with state := .ready }).control = s.control := rfl
  unfold State.completeRequest State.postNotice
  simp only [told, Config.noticeCapacity, if_pos room]
  split
  · rfl
  · rw [List.append_nil]
    rfl

/-- A request completed in a state that a raise may have changed: queue, record and enable are those of the state before it (R59, R88). -/
theorem Reports.completeRequest {s t : State} (told : Reports s t) (q : SeedRequest) (rest : List SeedRequest) :
    (t.setQueue rest).completeRequest q =
      let done : State :=
        { t with seed := { s.seed with queue := rest }, paths := s.paths.set q.path { s.path q.path with state := .ready } }
      if q.kind = .clear ∧ s.control.enablePath = true then done.postNotice (.pathReady q.path) none else done := by
  have enabled : (t.setQueue rest).control.enablePath = s.control.enablePath := told.enablePath
  unfold State.completeRequest
  rw [← told.seed, ← told.paths, ← told.path, ← enabled]
  rfl

theorem State.completeRequest_seed (s : State) (q : SeedRequest) : (s.completeRequest q).seed = s.seed := by
  unfold State.completeRequest
  dsimp only
  split
  · exact (State.postNotice_reports _ _ _).seed
  · rfl

/-! ### A budget (R86) -/

theorem State.seedRun_add (s : State) (m n : Nat) : State.seedRun (m + n) s = State.seedRun n (State.seedRun m s) := by
  induction m generalizing s with
  | zero => rw [Nat.zero_add]; rfl
  | succ m ih => rw [Nat.succ_add]; exact ih s.seedOne

theorem State.seedRun_nil (s : State) (n : Nat) (queue : s.seed.queue = []) : State.seedRun n s = s := by
  induction n with
  | zero => rfl
  | succ n ih =>
    have idle : s.seedOne = s := by unfold State.seedOne; rw [queue]
    rw [State.seedRun, idle, ih]

/-- Of a chain's partitions, those with an index from `low` up to but not with `high` rewritten, and no other partition. -/
structure Rewritten (chain : List Nat) (f : Partition → Partition) (low high : Nat) (old new : PartitionStore) : Prop where
  wf : new.wf = true
  listed : ∀ k n, chain[k]? = some n → new.read n = if low ≤ k ∧ k < high then f (old.read n) else old.read n
  others : ∀ n, n ∉ chain → new.read n = old.read n

theorem Rewritten.refl (chain : List Nat) (f : Partition → Partition) (low : Nat) {old : PartitionStore} (wf : old.wf = true) :
    Rewritten chain f low low old old where
  wf := wf
  listed := fun k n _ => by rw [if_neg (by omega)]
  others := fun _ _ => rfl

/-- The next partition of a chain reads as it did before any of them was rewritten. -/
theorem Rewritten.read_next {chain : List Nat} {f : Partition → Partition} {low high : Nat} {old new : PartitionStore}
    (h : Rewritten chain f low high old new) {n : Nat} (next : chain[high]? = some n) : new.read n = old.read n := by
  rw [h.listed high n next, if_neg (by omega)]

/-- The next partition of a chain of distinct ones rewritten too. -/
theorem Rewritten.succ {chain : List Nat} {f : Partition → Partition} {low high : Nat} {old new : PartitionStore}
    (h : Rewritten chain f low high old new) (nodup : chain.Nodup) (le : low ≤ high) {n : Nat} (next : chain[high]? = some n) :
    Rewritten chain f low (high + 1) old (new.write n (f (old.read n))) where
  wf := PartitionStore.wf_write _ _ _ h.wf
  listed := fun k m found => by
    by_cases same : m = n
    · subst same
      have index : k = high := (List.getElem?_inj (List.getElem?_eq_some_iff.mp found).1 nodup).mp (found.trans next.symm)
      rw [PartitionStore.read_write_self _ _ _ h.wf, if_pos (by omega)]
    · have index : k ≠ high := fun e => same (Option.some.inj ((e ▸ found).symm.trans next))
      rw [PartitionStore.read_write_ne _ _ _ _ h.wf same, h.listed k m found]
      congr 1
      simp only [eq_iff_iff]
      omega
  others := fun m absent => by
    have other : m ≠ n := fun e => absent (e ▸ List.mem_of_getElem? next)
    rw [PartitionStore.read_write_ne _ _ _ _ h.wf other, h.others m absent]

/-! ### A request in service (R86 to R88) -/

/-- The state with other contents of the partitions and another seed queue. -/
def State.seeded (s : State) (cells : PartitionStore) (queue : List SeedRequest) : State :=
  { s with pool := { s.pool with cells := cells }, seed := { s.seed with queue := queue } }

/-- A CLEAR, or a COPY of a path whose live sets are all read without a mismatch. -/
def State.SeedTrusted (s : State) (q : SeedRequest) : Prop :=
  q.kind = .copy → ∀ m ∈ (s.path q.path).chain, ((s.pool.cells.read m).get (s.path q.path).live).upset = false

/-- The contents of the partitions with a request's done count raised to `done`. -/
def State.SeededTo (s : State) (q : SeedRequest) (done : Nat) (cells : PartitionStore) : Prop :=
  Rewritten (s.path q.path).chain (q.rewritten (s.path q.path).live) (q.first + q.done) (q.first + done) s.pool.cells cells

section
variable {s : State} {q : SeedRequest} {rest : List SeedRequest}

theorem State.SeededTo.rewritePartition {done n : Nat} {cells : PartitionStore} (h : s.SeededTo q done cells) (trusted : s.SeedTrusted q)
    (next : (s.path q.path).chain[q.first + done]? = some n) (queue : List SeedRequest) :
    (s.seeded cells queue).rewritePartition { q with done := done } =
      s.seeded (cells.write n (q.rewritten (s.path q.path).live (s.pool.cells.read n))) queue := by
  have unread : (s.seeded cells queue).pool.cells.read n = s.pool.cells.read n := h.read_next next
  rw [State.rewritePartition_eq (s.seeded cells queue) { q with done := done } next, unread, State.seedMismatch_trusted]
  · rfl
  · exact fun copy => trusted copy n (List.mem_of_getElem? next)

/-- The partitions a request spends before the one that completes it: each rewritten in its turn, and nothing else but its done count
changed (R86, R87). -/
theorem State.seedRun_goesOn (queue : s.seed.queue = q :: rest) (wf : s.pool.cells.wf = true) (nodup : (s.path q.path).chain.Nodup)
    (fits : q.first + q.count = (s.path q.path).chain.length) (trusted : s.SeedTrusted q) (j : Nat) (more : q.done + j < q.count) :
    ∃ cells, s.SeededTo q (q.done + j) cells ∧ State.seedRun j s = s.seeded cells ({ q with done := q.done + j } :: rest) := by
  induction j with
  | zero =>
    refine ⟨s.pool.cells, Rewritten.refl _ _ _ wf, ?_⟩
    show s = { s with seed := { s.seed with queue := q :: rest } }
    rw [← queue]
  | succ j ih =>
    obtain ⟨cells, written, ran⟩ := ih (by omega)
    have next : (s.path q.path).chain[q.first + (q.done + j)]? = some _ := List.getElem?_eq_getElem (by omega)
    refine ⟨_, written.succ nodup (by omega) next, ?_⟩
    rw [State.seedRun_add, ran, State.seedRun, State.seedRun,
      State.seedOne_goesOn (s.seeded cells ({ q with done := q.done + j } :: rest)) rfl (by exact more), written.rewritePartition trusted next]
    rfl

/-- The last partition of a request alone in the queue, and what is left of the budget: the request completes, and the rest of the budget is
not spent (R86, R88). -/
theorem State.seedRun_completes (queue : s.seed.queue = [q]) (wf : s.pool.cells.wf = true) (nodup : (s.path q.path).chain.Nodup)
    (fits : q.first + q.count = (s.path q.path).chain.length) (trusted : s.SeedTrusted q) (begun : q.done < q.count) {budget : Nat}
    (enough : q.count ≤ q.done + budget) :
    ∃ cells, s.SeededTo q q.count cells ∧ State.seedRun budget s = (s.seeded cells []).completeRequest q := by
  obtain ⟨j, left, last, rfl⟩ : ∃ j left, q.done + j + 1 = q.count ∧ budget = j + 1 + left :=
    ⟨q.count - q.done - 1, budget - (q.count - q.done), by omega, by omega⟩
  obtain ⟨cells, written, ran⟩ := State.seedRun_goesOn queue wf nodup fits trusted j (by omega)
  have next : (s.path q.path).chain[q.first + (q.done + j)]? = some _ := List.getElem?_eq_getElem (by omega)
  have final := written.succ nodup (by omega) next
  rw [Nat.add_assoc q.first, last] at final
  refine ⟨_, final, ?_⟩
  rw [State.seedRun_add, State.seedRun_add, ran, State.seedRun, State.seedRun,
    State.seedOne_completes (s.seeded cells [{ q with done := q.done + j }]) rfl last, written.rewritePartition trusted next]
  exact State.seedRun_nil _ _ (congrArg SeedEngine.queue (State.completeRequest_seed _ _))

/-- A budget spent on a request alone in the queue, field by field: as many of its partitions as remain, and its completion with the last of
them (R86 to R88). -/
theorem State.seedRun_single (queue : s.seed.queue = [q]) (wf : s.pool.cells.wf = true) (nodup : (s.path q.path).chain.Nodup)
    (fits : q.first + q.count = (s.path q.path).chain.length) (trusted : s.SeedTrusted q) (begun : q.done < q.count)
    (room : s.control.notices.length < 8) (budget : Nat) :
    let done := q.done + min budget (q.count - q.done)
    ∃ cells, s.SeededTo q done cells ∧
      State.seedRun budget s =
        { s with
          pool := { s.pool with cells := cells }
          seed := { s.seed with queue := if done = q.count then [] else [{ q with done := done }] }
          paths := if done = q.count then s.paths.set q.path { s.path q.path with state := .ready } else s.paths
          control :=
            { s.control with
              notices :=
                s.control.notices ++
                  (if done = q.count ∧ q.kind = .clear ∧ s.control.enablePath = true then [.pathReady q.path] else []) } } := by
  intro done
  rcases Nat.lt_or_ge (q.done + budget) q.count with more | enough
  · have spent : done = q.done + budget := congrArg (q.done + ·) (Nat.min_eq_left (by omega))
    have goesOn : ¬done = q.count := by omega
    obtain ⟨cells, written, ran⟩ := State.seedRun_goesOn queue wf nodup fits trusted budget more
    refine ⟨cells, spent ▸ written, ?_⟩
    rw [ran, ← spent, if_neg goesOn, if_neg goesOn, if_neg fun h => goesOn h.1, List.append_nil]
    rfl
  · have ended : done = q.count := by
      show q.done + min budget (q.count - q.done) = q.count
      omega
    obtain ⟨cells, written, ran⟩ := State.seedRun_completes queue wf nodup fits trusted begun enough
    refine ⟨cells, ended ▸ written, ?_⟩
    rw [ran, (s.seeded cells []).completeRequest_eq q room, if_pos ended, if_pos ended]
    simp only [ended, true_and]
    rfl

end

/-! ### The step (R85, R89) -/

theorem State.seedAllowed_iff (s : State) : s.seedAllowed = true ↔ s.ports.lock = .locked ∧ s.unit.opState ≠ .offline := by
  simp [State.seedAllowed]

/-- SEED_STEP with its period's grant: the whole budget spent, or the step lost (R85, R86, R89). -/
theorem exec_seedStep_granted (s : State) (granted : s.seed.granted = true) :
    exec .seedStep s =
      .next (if s.seedAllowed then State.seedRun 48 { s with seed := { s.seed with granted := false } }
        else { s with seed := { s.seed with granted := false } }) := by
  refine congrArg Host.Outcome.next ?_
  unfold State.takeSeedStep
  rw [if_pos granted]
  rfl

/-- Settles O24: one partition by the request's kind, then the budget as a run of them, to the request's end or to its own. -/
theorem seedStepEffect : Obligations.SeedStepEffect := by
  refine ⟨fun s granted => ⟨fun idle => ?_, fun locked working => ?_⟩, fun s lost => ?_, fun s m n => ⟨rfl, rfl, s.seedRun_add m n⟩,
    fun s q rest n queue inTable sized wf listed begun => ?_,
    fun s q granted locked working sized queue inTable nodup fits begun room trusted => ?_⟩
  · rw [exec_seedStep_granted s granted]
    split
    · next allowed =>
      obtain ⟨locked, working⟩ := s.seedAllowed_iff.mp allowed
      have empty : s.seed.queue = [] := by simpa [locked, working] using idle
      exact congrArg Host.Outcome.next (State.seedRun_nil _ _ empty)
    · rfl
  · rw [exec_seedStep_granted s granted, if_pos (s.seedAllowed_iff.mpr ⟨locked, working⟩)]
  · refine congrArg Host.Outcome.next ?_
    unfold State.takeSeedStep
    rw [lost]
    rfl
  · intro r source x
    have made : q.rewritten r.live (s.pool.cells.read n) = x := by
      unfold SeedRequest.rewritten
      cases kind : q.kind <;> simp only [x, kind] <;> rfl
    refine ⟨s.pool.cells.write n x, PartitionStore.wf_write _ _ _ wf, PartitionStore.read_write_self _ _ _ wf,
      fun k other => PartitionStore.read_write_ne _ _ _ _ wf other, ?_⟩
    intro v u
    have rewrote : s.rewritePartition q = u := by
      rw [State.rewritePartition_eq s q listed, made]
      rfl
    have told : Reports v u := v.seedMismatch_reports q source
    refine ⟨fun more => ?_, fun last => ?_⟩
    · rw [s.seedOne_goesOn queue more, rewrote]
      show { u with seed := { u.seed with queue := _ } } = _
      rw [told.seed]
    · rw [s.seedOne_completes queue last, rewrote]
      exact told.completeRequest q rest
  · obtain ⟨-, -, -, -, pathCount, -, -, -, wf⟩ := sized
    obtain ⟨cells, written, ran⟩ :=
      State.seedRun_single (s := { s with seed := { s.seed with granted := false } }) queue wf nodup fits trusted begun room 48
    rw [exec_seedStep_granted s granted, if_pos (s.seedAllowed_iff.mpr ⟨locked, working⟩), ran]
    refine ⟨_, rfl, ?_⟩
    intro n r done
    refine ⟨rfl, ?_, fun p other => ?_, fun k m listed => ?_, written.others, rfl, rfl, rfl, rfl, rfl, rfl, rfl, rfl, rfl, rfl⟩
    · unfold State.path
      dsimp only
      by_cases complete : done
      · rw [if_pos complete, if_pos complete]
        exact s.path_putPath_self q.path _ (pathCount ▸ inTable)
      · rw [if_neg complete, if_neg complete]
        rfl
    · unfold State.path
      dsimp only
      split
      · exact s.path_putPath_ne q.path p _ other.symm
      · rfl
    · refine (written.listed k m listed).trans (if_congr (by rw [Nat.add_assoc]) ?_ rfl)
      unfold SeedRequest.rewritten
      cases kind : q.kind with
      | clear => rfl
      | copy =>
        exact congrArg (fun taps => (s.pool.cells.read m).put r.live.other { taps := taps, upset := false })
          (CoeffSet.read_good (trusted kind m (List.mem_of_getElem? listed)))

end Sys2Proof.Machine
end

section
/-! The grant of a readback's packet (chapter 9): its bytes, its source, and the state that it leaves. -/

namespace Sys2Proof.Machine

open Sys2Proof.Safety

/-! ### The bytes of a DATA packet (R172, 11.2) -/

theorem bytes2_eq (n : Nat) : bytes2 n = [BitVec.ofNat 8 (n / 256), BitVec.ofNat 8 n] := by
  have high : (BitVec.ofNat 16 n).extractLsb' 8 8 = BitVec.ofNat 8 (n / 256) := by
    apply BitVec.eq_of_toNat_eq
    simp only [BitVec.extractLsb'_toNat, BitVec.toNat_ofNat, Nat.shiftRight_eq_div_pow]
    omega
  have low : (BitVec.ofNat 16 n).extractLsb' 0 8 = BitVec.ofNat 8 n := by
    apply BitVec.eq_of_toNat_eq
    simp only [BitVec.extractLsb'_toNat, BitVec.toNat_ofNat, Nat.shiftRight_zero]
    omega
  rw [bytes2, halfBytes, high, low]

/-! ### The packet's source (R59, R151) -/

theorem State.readbackSource_eq (s : State) (rb : Readback) {n : Nat} (listed : (s.path rb.path).chain[rb.next]? = some n) :
    s.readbackSource rb = (s.pool.cells.read n).get (rb.set.of (s.path rb.path)) := by
  unfold State.readbackSource PathRecord.partitionAt
  dsimp only
  rw [listed]
  rfl

/-- What a grant of a readback's packet finds once the mismatch of its source is raised (R59). -/
def State.sourceRead (s : State) (rb : Readback) : State :=
  if (s.readbackSource rb).upset then s.raise .coeffParity (.path rb.path rb.next) none else s

theorem State.sourceRead_reports (s : State) (rb : Readback) : Reports s (s.sourceRead rb) := by
  unfold State.sourceRead
  split
  · exact s.raise_reports _ _ _
  · exact Reports.refl s

theorem State.grantData_more (s : State) (rb : Readback) (more : 1 < rb.remaining) :
    s.grantData rb =
      (rb.dataBody false (s.readbackSource rb).read,
        (s.sourceRead rb).setStreamer (.streaming { rb with next := rb.next + 1, remaining := rb.remaining - 1 })) := by
  unfold State.grantData
  simp only [decide_eq_false (Nat.not_le.mpr more), Bool.false_eq_true, if_false]
  rfl

theorem State.grantData_last (s : State) (rb : Readback) (last : rb.remaining = 1) :
    s.grantData rb = (rb.dataBody true (s.readbackSource rb).read, ((s.sourceRead rb).setStreamer .idle).finishReadback rb) := by
  unfold State.grantData
  simp only [decide_eq_true (Nat.le_of_eq last), if_true]
  rfl

/-- The end of a readback before a pending promote is applied, field by field (R151, R152). -/
theorem State.unheld_eq (s : State) (rb : Readback) :
    s.unheld rb =
      { s with
        paths := if rb.set = .background then s.paths.set rb.path { s.path rb.path with readHeld := false } else s.paths } := by
  unfold State.unheld
  split <;> rfl

theorem State.finishReadback_ports (s : State) (rb : Readback) : (s.finishReadback rb).ports = s.ports := by
  have ended : (s.unheld rb).ports = s.ports := by rw [State.unheld_eq]
  rcases s.finishReadback_cases rb with ⟨finished, -⟩ | ⟨c, -, -, finished⟩
  · rw [finished, ended]
  · rw [finished, (State.applyPromotion_blockWork _ c).ports, ended]

theorem State.grantData_ports (s : State) (rb : Readback) : (s.grantData rb).2.ports = s.ports := by
  have read := (s.sourceRead_reports rb).ports
  unfold State.grantData
  dsimp only
  split
  · rw [State.finishReadback_ports]
    exact read
  · exact read

/-! ### The transmission that carries it (R158, R159) -/

/-- The control unit after the own source is granted against a forward source that offers nothing or has won the last contention (R159). -/
def Control.ownGranted (c : Control) : Control := { c with winner := if c.forward = [] then c.winner else .own }

theorem Control.decide_own (c : Control) (offers : c.ownOffers = true) (turn : c.forward = [] ∨ c.winner = .forward) :
    c.decide = (some .own, c.ownGranted.winner) := by
  unfold Control.decide Control.ownGranted
  rw [offers]
  cases queued : c.forward with
  | nil => simp [Control.forwardOffers, queued]
  | cons p rest =>
    have won : c.winner = .forward := by simpa [queued] using turn
    simp [Control.forwardOffers, queued, won, Source.other]

theorem State.grantOwn_data (s : State) {rb : Readback} (replies : s.control.replies = []) (notices : s.control.notices = [])
    (reading : s.control.streamer = .streaming rb) : s.grantOwn = (some (withCrc (s.grantData rb).1), (s.grantData rb).2) := by
  unfold State.grantOwn
  rw [replies, notices, reading]

/-- INBOUND_BLOCK_TRANSMIT where the streamer's DATA packet is granted: the packet in the window of the next waiting block (R151, R158). -/
theorem exec_transmit_data (s : State) {b : InboundBlock} {line : List InboundBlock} {rb : Readback} (running : s.ports.pinHeld = false)
    (ready : s.ports.coreLine = b :: line) (turn : s.control.forward = [] ∨ s.control.winner = .forward) (replies : s.control.replies = [])
    (notices : s.control.notices = []) (reading : s.control.streamer = .streaming rb) :
    let granted := (s.setControl s.control.ownGranted).grantData rb
    exec .inboundBlockTransmit s =
      .next { granted.2 with
        ports :=
          { s.ports with
            coreLine := line
            coreTx := some { seq := b.seq, filler := b.filler, slots := b.slots, packet := some (withCrc granted.1) } } } := by
  intro granted
  have offers : s.control.ownOffers = true := by simp [Control.ownOffers, reading]
  have arbitrated : s.arbitrate = (some (withCrc granted.1), granted.2) := by
    unfold State.arbitrate
    rw [s.control.decide_own offers turn]
    exact (s.setControl s.control.ownGranted).grantOwn_data replies notices reading
  have row : exec .inboundBlockTransmit s = .next (s.whilePortsRun State.transmit) := rfl
  rw [row, s.whilePortsRun_run _ running]
  unfold State.transmit
  rw [ready, arbitrated]
  dsimp only
  rw [State.grantData_ports]
  rfl

/-- Settles O23: the packet's source and bytes, then MORE, LAST, and LAST with the pending promotion (R151). -/
theorem readbackGrant : Obligations.ReadbackGrant := by
  refine ⟨fun rb last taps => ?_, ?_⟩
  · refine ⟨byteOf (rb.set.byte.toNat * 0x80 + (if last then 1 else 0)), ?_, ?_⟩
    · unfold Readback.dataBody
      rw [bytes2_eq]
      rfl
    · cases rb.set <;> cases last <;> decide
  · intro s b line rb n running ready turn replies notices reading listed r set source taps won s0 sent ended
    have named : rb.set.of r = set := by cases kind : rb.set <;> simp only [set, kind, ReadSet.of, PathRecord.background]
    have found : (s.setControl s.control.ownGranted).readbackSource rb = source := by
      show _ = (s.pool.cells.read n).get set
      rw [← named]
      exact State.readbackSource_eq _ rb listed
    have read : (s.setControl s.control.ownGranted).sourceRead rb = s0 := by
      unfold State.sourceRead
      rw [found]
      rfl
    have told : Reports (s.setControl s.control.ownGranted) s0 := read ▸ State.sourceRead_reports _ rb
    have record : (s0.setStreamer .idle).path rb.path = r := told.path rb.path
    have channel : ∀ c, (s0.setStreamer .idle).channel c = s.channel c := told.channel
    have closed : (s0.setStreamer .idle).unheld rb = ended := by
      rw [State.unheld_eq, record, show (s0.setStreamer .idle).paths = s.paths from told.paths]
      rfl
    have row := exec_transmit_data s running ready turn replies notices reading
    refine ⟨fun more => ?_, fun last settled => ?_, fun c last owner pending => ?_⟩
    · rw [row, State.grantData_more _ rb more, found, read]
      rfl
    · rw [row, State.grantData_last _ rb last, found, read]
      rcases (s0.setStreamer .idle).finishReadback_cases rb with ⟨finished, -⟩ | ⟨c, owner, pending, -⟩
      · rw [finished, closed]
        rfl
      · rw [record] at owner
        rw [channel, settled c owner] at pending
        cases pending
    · rw [row, State.grantData_last _ rb last, found, read]
      rcases (s0.setStreamer .idle).finishReadback_cases rb with ⟨-, settled⟩ | ⟨k, owner', -, finished⟩
      · rw [← channel, settled c (record ▸ owner)] at pending
        cases pending
      · rw [record, owner] at owner'
        obtain rfl := Option.some.inj owner'
        rw [finished, closed]
        rfl

end Sys2Proof.Machine
end

section
/-! WRITE COMPARISON, and the reads that change nothing: READ CHANNEL STATS, READ SEED QUEUE, STATUS and READ FAULTS. -/

namespace Sys2Proof.Machine

open Sys2Proof.Safety

/-! ### WRITE COMPARISON (R66, R77, R78) -/

/-- A comparison state under new parameters, field by field: the window stands where W stands, and the reseed count is limited anew where the
limit changes (R77, R78). -/
theorem ComparisonState.underParams_eq (m : ComparisonState) (old new : ComparatorParams) :
    m.underParams old new =
      { m with
        count := if old.window = new.window then m.count else 0
        captureSum := if old.window = new.window then m.captureSum else 0
        liveSum := if old.window = new.window then m.liveSum else 0
        backgroundSum := if old.window = new.window then m.backgroundSum else 0
        farCount := if old.window = new.window then m.farCount else 0
        disturbed := if old.window = new.window then m.disturbed else false
        reseedCount := if old.reseedLimit = new.reseedLimit then m.reseedCount else min m.reseedCount new.reseedLimit } := by
  unfold ComparisonState.underParams ComparisonState.windowRestarted
  by_cases window : old.window = new.window <;> by_cases limit : old.reseedLimit = new.reseedLimit <;> simp [window, limit]

/-- Settles O46: the ranges of R66, then every channel's comparison state under the new parameters. -/
theorem writeComparisonEffect : Obligations.WriteComparisonEffect := by
  intro s tag w pm pc dm dc rl th accepting inRange result
  let p : ComparatorParams :=
    { window := w.toNat, promoteMargin := pm.toNat, promoteCount := pc.toNat, divergenceMargin := dm.toNat, divergenceCount := dc.toNat,
      reseedLimit := rl.toNat, threshold := th.toNat }
  have ran : result = _ := exec_taken accepting rfl
  have ranges : p.inRange = true ↔ inRange := by
    rw [inRange_iff]
    simp only [p, inRange, and_assoc]
  refine ⟨fun outside => ?_, fun inside => ?_⟩
  · rw [ran, if_neg fun h => outside (ranges.mp h)]
    rfl
  · rw [ran, if_pos (ranges.mpr inside)]
    show Host.Outcome.next (replied (s.writeComparison p) tag 0x30 .done []) = _
    unfold State.writeComparison
    simp only [ComparisonState.underParams_eq]
    rfl

/-! ### The first-fault record (11.5) -/

/-- The first byte of an occupied record: bit 7, the multiple flag in bit 6, whether there is a tag in bit 5, the class code in bits 3 to 0. -/
theorem recordHead_bits : ∀ (multiple tagged : Bool), ∀ code < 16,
    let head := byteOf (0x80 + (if multiple then 0x40 else 0) + (if tagged then 0x20 else 0) + code)
    head.getLsbD 7 = true ∧ head.getLsbD 6 = multiple ∧ head.getLsbD 5 = tagged ∧ (head &&& 0x0F).toNat = code := by
  decide

theorem FaultUnit.recordBytes_none (u : FaultUnit) (empty : u.record = none) :
    u.recordBytes = [if u.multiple then 0x40 else 0, 0, 0, 0, 0, 0, 0] := by
  unfold FaultUnit.recordBytes
  rw [empty]

theorem FaultUnit.recordBytes_some (u : FaultUnit) {r : FaultRecord} (occupied : u.record = some r) :
    u.recordBytes =
      [byteOf (0x80 + (if u.multiple then 0x40 else 0) + (if r.tag.isSome then 0x20 else 0) + r.cls.code)] ++ r.subject.bytes ++
        [r.tag.getD 0, r.seq] := by
  unfold FaultUnit.recordBytes
  rw [occupied]

/-! ### The reads (R80, R94, R124, R148, R169) -/

theorem SeedKind.byte_eq (k : SeedKind) : k.byte = if k = .copy then 1 else 0 := by cases k <;> rfl

/-- Settles O47: each read's check and payload in the state it finds, and the record's bytes by what the record holds. -/
theorem plainReads : Obligations.PlainReads := by
  intro s tag accepting
  refine ⟨fun channel => ?_, fun start count => ?_, ?_, (exec_taken (i := .readFaults tag) accepting rfl).trans rfl, s.unit.recordBytes_none,
    fun r occupied => ?_⟩
  · intro ch
    refine Eq.trans (exec_taken (i := .readChannelStats tag channel) accepting rfl) ?_
    split <;> rfl
  · intro entries
    refine Eq.trans (exec_taken (i := .readSeedQueue tag start count) accepting rfl) ?_
    simp only [← SeedKind.byte_eq]
    split <;> rfl
  · refine Eq.trans (exec_taken (i := .status tag) accepting rfl) ?_
    show Host.Outcome.next (replied s tag 0x70 .done s.statusBytes) = _
    unfold State.statusBytes Streamer.bytes
    cases s.control.streamer <;> rfl
  · obtain ⟨occupiedBit, multipleBit, tagBit, codeBits⟩ :=
      recordHead_bits s.unit.multiple r.tag.isSome r.cls.code (Nat.lt_trans r.cls.code_lt (by decide))
    refine ⟨_, _, s.unit.recordBytes_some occupied, occupiedBit, multipleBit, tagBit, codeBits, fun x tagged => ?_⟩
    rw [tagged]
    rfl

end Sys2Proof.Machine
end

section
/-! Promotion and reseed (chapter 4): the copies over the whole state, what each changes and keeps, the raise at the limit, and PROMOTE
CHANNEL. -/

namespace Sys2Proof.Machine

open Sys2Proof.Safety

/-! ### Tables that a raise neither reads nor writes -/

/-- The state with other channel records, path records and seed engine. -/
def State.retabled (s : State) (channels : List Channel) (paths : List PathRecord) (seed : SeedEngine) : State :=
  { s with channels := channels, paths := paths, seed := seed }

section
variable (s : State) (channels : List Channel) (paths : List PathRecord) (seed : SeedEngine)

@[simp] theorem State.retabled_unit : (s.retabled channels paths seed).unit = s.unit := rfl
@[simp] theorem State.retabled_control : (s.retabled channels paths seed).control = s.control := rfl
@[simp] theorem State.retabled_comparator : (s.retabled channels paths seed).comparator = s.comparator := rfl

@[simp] theorem State.retabled_setStatus (c : FaultClass) :
    (s.retabled channels paths seed).setStatus c = (s.setStatus c).retabled channels paths seed := rfl

@[simp] theorem State.retabled_noteRaise (c : FaultClass) (x : Subject) (tag : Option Byte) :
    (s.retabled channels paths seed).noteRaise c x tag = (s.noteRaise c x tag).retabled channels paths seed := by
  unfold State.noteRaise
  rw [State.retabled_unit]
  cases s.unit.record <;> rfl

@[simp] theorem State.retabled_changeOpState (new : OpState) :
    (s.retabled channels paths seed).changeOpState new = (s.changeOpState new).retabled channels paths seed := by
  unfold State.changeOpState
  rw [State.retabled_unit]
  dsimp only
  split <;> rfl

/-- A choice between two states with the same tables is the choice, with those tables. -/
theorem State.ite_retabled (p : Prop) [Decidable p] (t : State) :
    (if p then s.retabled channels paths seed else t.retabled channels paths seed) = (if p then s else t).retabled channels paths seed :=
  (apply_ite (fun u : State => u.retabled channels paths seed) p s t).symm

@[simp] theorem State.retabled_raiseOverflow (kind : NoticeKind) (tag : Option Byte) :
    (s.retabled channels paths seed).raiseOverflow kind tag = (s.raiseOverflow kind tag).retabled channels paths seed := by
  simp only [State.raiseOverflow, State.retabled_unit, State.retabled_control, State.retabled_setStatus, State.retabled_noteRaise,
    State.retabled_changeOpState, State.ite_retabled]

@[simp] theorem State.retabled_postNotice (n : Notice) (tag : Option Byte) :
    (s.retabled channels paths seed).postNotice n tag = (s.postNotice n tag).retabled channels paths seed := by
  unfold State.postNotice
  rw [State.retabled_control, State.retabled_raiseOverflow, ← State.ite_retabled]
  rfl

@[simp] theorem State.retabled_enterState (new : OpState) (reason : Reason) (tag : Option Byte) :
    (s.retabled channels paths seed).enterState new reason tag = (s.enterState new reason tag).retabled channels paths seed := by
  simp only [State.enterState, State.retabled_unit, State.retabled_control, State.retabled_changeOpState, State.retabled_postNotice,
    State.ite_retabled]

/-- A raise is the same whatever channel records, path records and seed engine it finds, and leaves them (R166). -/
theorem State.retabled_raise (c : FaultClass) (x : Subject) (tag : Option Byte) :
    (s.retabled channels paths seed).raise c x tag = (s.raise c x tag).retabled channels paths seed := by
  simp only [State.raise, State.retabled_unit, State.retabled_control, State.retabled_setStatus, State.retabled_noteRaise,
    State.retabled_postNotice, State.retabled_enterState, State.ite_retabled]

end

/-! ### The copies (R74, R76) -/

theorem OnlyPaths.eq_retabled {s t : State} (h : OnlyPaths s t) : t = s.retabled s.channels t.paths t.seed := by
  show t = { ports := s.ports, modulators := s.modulators, references := s.references, histories := s.histories, channels := s.channels,
             paths := t.paths, pool := s.pool, comparator := s.comparator, seed := t.seed, decision := s.decision, control := s.control,
             unit := s.unit, pending := s.pending }
  rw [← h.ports, ← h.modulators, ← h.references, ← h.histories, ← h.channels, ← h.pool, ← h.comparator, ← h.decision, ← h.control,
    ← h.unit, ← h.pending]

/-- The state in which a channel's copies have begun, its comparison state replaced. -/
def State.copied (s : State) (flip : Bool) (c : Nat) (m : ComparisonState) : State :=
  s.retabled (s.channels.set c { s.channel c with comparison := m }) (s.beginCopies flip c).paths (s.beginCopies flip c).seed

theorem State.beginCopies_putComparison (s : State) (flip : Bool) (c : Nat) (m : ComparisonState) :
    (s.beginCopies flip c).putComparison c m = s.copied flip c m := by
  have copies := s.beginCopies_only flip c
  unfold State.putComparison State.putChannel
  rw [State.beginCopies_channel, copies.channels]
  conv_lhs => rw [copies.eq_retabled]
  rfl

/-- What the copies leave of the path table and the seed queue (R74, R76). -/
theorem State.copied_spec (s : State) (flip : Bool) (c : Nat) (m : ComparisonState) (nodup : (s.channel c).paths.Nodup)
    (inTable : ∀ p ∈ (s.channel c).paths, p < s.paths.length) :
    (∀ p ∈ (s.channel c).paths, (s.copied flip c m).path p =
        { s.path p with live := if flip then (s.path p).live.other else (s.path p).live, state := .seeding }) ∧
      (∀ p, p ∉ (s.channel c).paths → (s.copied flip c m).path p = s.path p) ∧
      (s.copied flip c m).seed =
        { s.seed with queue := s.seed.queue ++ (s.channel c).paths.map fun p => wholeChain p .copy (s.path p) } := by
  obtain ⟨listed, others, queue⟩ := s.foldl_beginCopy flip (s.channel c).paths nodup inTable
  exact ⟨listed, others, congrArg₂ SeedEngine.mk queue (s.beginCopies_only flip c).granted⟩

/-! ### What a promotion and a reseed make of a comparison state (R74, R76, R77) -/

/-- A comparison state after a promotion (R74). -/
def ComparisonState.promoted (m : ComparisonState) : ComparisonState :=
  { m with promoteStreak := 0, divergenceStreak := 0, reseedCount := 0, pendingPromote := false, disturbed := true }

/-- A comparison state after a reseed under a reseed limit (R76, R77). -/
def ComparisonState.reseeded (m : ComparisonState) (limit : Nat) : ComparisonState :=
  { m with
    promoteStreak := 0, divergenceStreak := 0, pendingPromote := false
    reseedCount := if m.reseedCount < limit then m.reseedCount + 1 else m.reseedCount }

/-- CHANNEL_UNSTABLE where a reseed raises a reseed count to its limit (R77). -/
def State.tellReseed (s : State) (c count : Nat) : State :=
  if count + 1 = s.comparator.reseedLimit then s.raise .channelUnstable (.channel c) none else s

theorem State.tellReseed_reports (s : State) (c count : Nat) : Reports s (s.tellReseed c count) := by
  unfold State.tellReseed
  split
  · exact s.raise_reports _ _ _
  · exact Reports.refl s

theorem State.retabled_tellReseed (s : State) (channels : List Channel) (paths : List PathRecord) (seed : SeedEngine) (c count : Nat) :
    (s.retabled channels paths seed).tellReseed c count = (s.tellReseed c count).retabled channels paths seed := by
  unfold State.tellReseed
  rw [State.retabled_comparator, State.retabled_raise, State.ite_retabled]

/-- A promotion: its copies, and the comparison state it leaves (R74). -/
theorem State.applyPromotion_eq (s : State) (c : Nat) :
    s.applyPromotion c = s.copied true c (s.channel c).comparison.promoted := by
  rw [← State.beginCopies_putComparison]
  unfold State.applyPromotion
  dsimp only
  rw [State.beginCopies_channel]
  rfl

/-- A reseed: its copies, the comparison state it leaves, and the raise at the limit (R76, R77). -/
theorem State.applyReseed_eq (s : State) (c : Nat) :
    s.applyReseed c =
      (s.copied false c ((s.channel c).comparison.reseeded s.comparator.reseedLimit)).tellReseed c (s.channel c).comparison.reseedCount := by
  have limit : (s.copied false c ((s.channel c).comparison.reseeded s.comparator.reseedLimit)).comparator = s.comparator := rfl
  unfold State.applyReseed State.tellReseed
  rw [limit, ← State.beginCopies_putComparison]
  dsimp only
  rw [State.beginCopies_channel]
  exact if_congr (and_iff_right_of_imp fun _ => by omega) rfl rfl

/-- Settles O27: the copies, then the comparison state and the raise; and the checks of R79 one after another. -/
theorem promotionAndReseed : Obligations.PromotionAndReseed := by
  refine ⟨fun s c _ _ sized nodup inTable => ?_, fun s tag channel accepting => ?_⟩
  · have listed := fun flip m => s.copied_spec flip c m nodup fun p hp => sized ▸ inTable p hp
    intro copies m
    constructor
    · intro t
      have applied : t = s.copied true c m.promoted := s.applyPromotion_eq c
      obtain ⟨own, others, seed⟩ := listed true m.promoted
      rw [applied]
      exact ⟨own, others, seed, rfl, rfl, rfl, rfl, rfl, rfl, rfl, rfl, rfl, rfl⟩
    · intro t told
      have reports : Reports s told := s.tellReseed_reports c m.reseedCount
      have applied : t = told.retabled _ _ _ := (s.applyReseed_eq c).trans (State.retabled_tellReseed _ _ _ _ _ _)
      obtain ⟨own, others, seed⟩ := listed false (m.reseeded s.comparator.reseedLimit)
      rw [applied]
      refine ⟨own, others, seed, rfl, rfl, rfl, rfl, fun limit => ?_, reports.pool, reports.ports, reports.references, reports.histories,
        reports.decision, reports.comparator⟩
      show told.unit.isSet .channelUnstable = true
      simp only [told, if_pos limit]
      exact s.raise_isSet _ _ _
  · intro paths busy result
    have ran : result = _ := exec_taken accepting rfl
    have isBusy : (paths.any fun p => (s.path p).state == .seeding || s.readbackOf p) = true ↔ busy := by
      simp only [busy, List.any_eq_true, Bool.or_eq_true, beq_iff_eq, State.readbackOf_iff]
    refine ⟨fun out => ?_, fun inRange empty => ?_, fun inRange some is => ?_, fun inRange some free => ?_⟩
    · rw [ran, if_pos out]
      rfl
    · rw [ran, if_neg (Nat.not_lt.mpr inRange)]
      dsimp only
      rw [if_pos empty]
      rfl
    · rw [ran, if_neg (Nat.not_lt.mpr inRange)]
      dsimp only
      rw [if_neg some, if_pos (isBusy.mpr is)]
      rfl
    · rw [ran, if_neg (Nat.not_lt.mpr inRange)]
      dsimp only
      rw [if_neg some, if_neg fun h => free (isBusy.mp h)]
      rfl

end Sys2Proof.Machine
end

section
/-! The evaluation window (chapter 4): stage 7 of a block, the result NONE, a taken result and what falls due. -/

namespace Sys2Proof.Machine

open Sys2Proof.Safety

/-! ### A comparison state written, and its window restarted -/

theorem State.channel_putComparison (s : State) (c : Nat) (m : ComparisonState) (inTable : c < s.channels.length) :
    (s.putComparison c m).channel c = { s.channel c with comparison := m } := s.channel_putChannel_self c _ inTable

theorem State.paths_putComparison (s : State) (c : Nat) (m : ComparisonState) :
    ((s.putComparison c m).channel c).paths = (s.channel c).paths := 
  s.channel_putChannel_congr Channel.paths c { s.channel c with comparison := m } rfl c

/-- Of two comparison states that both come from what the record holds, the second stands. -/
theorem State.putComparison_update (s : State) (c : Nat) (m : ComparisonState) (f : ComparisonState → ComparisonState) :
    (s.putComparison c m).putComparison c (f ((s.putComparison c m).channel c).comparison) = s.putComparison c (f m) := by
  show (s.putChannel c _).putChannel c _ = s.putChannel c _
  rw [State.putChannel_putChannel]
  refine congrArg s.setChannels (List.set_getD_congr _ _ _ _ fun inTable => ?_)
  rw [s.channel_putComparison c m inTable]

theorem State.putComparison_putComparison (s : State) (c : Nat) (m n : ComparisonState) :
    (s.putComparison c m).putComparison c n = s.putComparison c n := s.putComparison_update c m fun _ => n

/-- The channel's window restarted (R69). -/
def State.restartWindow (s : State) (c : Nat) : State := s.putComparison c (s.channel c).comparison.windowRestarted

theorem State.restartWindow_putComparison (s : State) (c : Nat) (m : ComparisonState) :
    (s.putComparison c m).restartWindow c = s.putComparison c m.windowRestarted :=
  s.putComparison_update c m ComparisonState.windowRestarted

/-! ### The result (R70 to R72) -/

/-- The result of the window that a block ends is NONE (R70). -/
def State.NoResult (s : State) (c : Nat) (x : WindowShare) : Prop :=
  (s.channel c).frozen = true ∨ (s.channel c).paths = [] ∨ (s.channel c).comparison.disturbed = true ∨ x.disturbed = true ∨
    2 * ((s.channel c).comparison.farCount + if x.far then 1 else 0) < s.comparator.window

theorem State.windowNone_iff (s : State) (c : Nat) (x : WindowShare) :
    ((s.putComparison c ((s.channel c).comparison.accumulate x)).channel c).windowNone s.comparator.window = true ↔ s.NoResult c x := by
  by_cases none : (s.channel c).paths = []
  · have listed := s.paths_putComparison c ((s.channel c).comparison.accumulate x)
    simp [Channel.windowNone, State.NoResult, none, listed]
  · have far : (if x.far then (s.channel c).comparison.farCount + 1 else (s.channel c).comparison.farCount) =
        (s.channel c).comparison.farCount + if x.far then 1 else 0 := by split <;> rfl
    rw [s.channel_putComparison c _ (s.channel_lt_of_paths c none)]
    simp [Channel.windowNone, State.NoResult, ComparisonState.accumulate, far, or_assoc]

theorem ratioAtLeast_natCast (root a b k : Nat) : ratioAtLeast root a b k = decide (b ^ root * 10 ^ k ≤ a ^ root) := by
  simp [ratioAtLeast]

/-- The background set is better by the promote margin (R72). -/
abbrev ComparisonState.Better (m : ComparisonState) (p : ComparatorParams) : Prop :=
  m.backgroundSum ^ 20 * 10 ^ p.promoteMargin ≤ m.liveSum ^ 20 ∧ ¬(m.liveSum = 0 ∧ m.backgroundSum = 0)

/-- The background set is not better, and worse by the divergence margin (R72). -/
abbrev ComparisonState.Worse (m : ComparisonState) (p : ComparatorParams) : Prop :=
  ¬m.Better p ∧ m.liveSum ^ 20 * 10 ^ p.divergenceMargin ≤ m.backgroundSum ^ 20 ∧ ¬(m.liveSum = 0 ∧ m.backgroundSum = 0)

/-- A comparison state with a taken result and its streaks (R71, R72). -/
def ComparisonState.judged (m : ComparisonState) (p : ComparatorParams) : ComparisonState := (m.withResult p).withStreaks p

theorem ComparisonState.withStreaks_eq (m : ComparisonState) (p : ComparatorParams) :
    m.withStreaks p =
      { m with
        promoteStreak := if m.Better p then m.promoteStreak + 1 else 0
        divergenceStreak := if m.Worse p then m.divergenceStreak + 1 else 0 } := by
  unfold ComparisonState.withStreaks ComparisonState.Worse ComparisonState.Better
  simp only [ratioAtLeast_natCast, decide_eq_true_eq]
  by_cases silent : m.liveSum = 0 ∧ m.backgroundSum = 0
  · simp only [silent, and_self, if_true, not_true, and_false, if_false]
  · by_cases better : m.backgroundSum ^ 20 * 10 ^ p.promoteMargin ≤ m.liveSum ^ 20
    · simp only [silent, better, if_true, if_false, not_true, not_false_eq_true, and_self, false_and]
    · simp only [silent, better, if_false, not_false_eq_true, and_true, true_and]
      split <;> rfl

theorem ComparisonState.withResult_eq (m : ComparisonState) (p : ComparatorParams) :
    m.withResult p =
      { m with
        erle := some (erleOf m.captureSum m.liveSum)
        liveLevel := some (wholeLevel m.liveSum (p.window * fullSine))
        backgroundLevel := some (wholeLevel m.backgroundSum (p.window * fullSine))
        flagB := decide (m.backgroundSum < m.liveSum)
        flagU := decide (m.captureSum ^ 20 < m.liveSum ^ 20 * 10 ^ p.threshold) } := by
  unfold ComparisonState.withResult
  simp only [ratioAtLeast_natCast, ← decide_not, Nat.not_le]

/-! ### What falls due (R73, R76) -/

/-- A readback of the live set of one of the channel's paths is in progress (R73). -/
def State.LiveRead (s : State) (c : Nat) : Prop :=
  ∃ p ∈ (s.channel c).paths, ∃ rb, s.control.streamer = .streaming rb ∧ rb.path = p ∧ rb.set = .live

theorem State.liveRead_iff (s : State) (c : Nat) : (s.channel c).paths.any s.liveReadbackOf = true ↔ s.LiveRead c := by
  simp only [State.LiveRead, List.any_eq_true, State.liveReadbackOf_iff]

theorem State.liveRead_putComparison (s : State) (c : Nat) (m : ComparisonState) : (s.putComparison c m).LiveRead c ↔ s.LiveRead c := by
  unfold State.LiveRead
  rw [State.paths_putComparison]
  rfl

theorem State.promotionDue_deferred (s : State) (c : Nat) (m : ComparisonState) (reading : s.LiveRead c) :
    (s.putComparison c m).promotionDue c =
      s.putComparison c { m with pendingPromote := true, promoteStreak := 0, divergenceStreak := 0 } := by
  unfold State.promotionDue
  rw [if_pos ((State.liveRead_iff _ c).mpr ((s.liveRead_putComparison c m).mpr reading))]
  exact s.putComparison_update c m fun n => { n with pendingPromote := true, promoteStreak := 0, divergenceStreak := 0 }

theorem State.promotionDue_applied (s : State) (c : Nat) (m : ComparisonState) (idle : ¬s.LiveRead c) :
    (s.putComparison c m).promotionDue c = (s.putComparison c m).applyPromotion c := by
  unfold State.promotionDue
  rw [if_neg fun h => idle ((s.liveRead_putComparison c m).mp ((State.liveRead_iff _ c).mp h))]

/-- The copies of a channel begin on path records and seed queue alone, whatever its comparison state. -/
theorem State.putComparison_beginCopies (s : State) (flip : Bool) (c : Nat) (m : ComparisonState) :
    (s.putComparison c m).beginCopies flip c = (s.beginCopies flip c).putComparison c m := by
  have commute : ∀ (l : List Nat) (t : State) (x : List Channel),
      l.foldl (fun s p => s.beginCopy flip p) (t.setChannels x) = (l.foldl (fun s p => s.beginCopy flip p) t).setChannels x := by
    intro l
    induction l with
    | nil => exact fun _ _ => rfl
    | cons p rest ih => exact fun t x => ih (t.beginCopy flip p) x
  have copies : ((s.putComparison c m).channel c).paths.foldl (fun s p => s.beginCopy flip p) (s.putComparison c m) =
      (s.beginCopies flip c).setChannels (s.channels.set c { s.channel c with comparison := m }) := by
    rw [State.paths_putComparison]
    exact commute _ s _
  refine copies.trans ?_
  unfold State.putComparison State.putChannel
  rw [(s.beginCopies_only flip c).channels, State.beginCopies_channel]

/-- Copies begun with a comparison state in place, which is then replaced. -/
theorem State.putComparison_copied (s : State) (flip : Bool) (c : Nat) (m n : ComparisonState) :
    (s.putComparison c m).copied flip c n = s.copied flip c n := by
  rw [← State.beginCopies_putComparison, ← State.beginCopies_putComparison, State.putComparison_beginCopies,
    State.putComparison_putComparison]

theorem State.restartWindow_copied (s : State) (flip : Bool) (c : Nat) (m : ComparisonState) :
    (s.copied flip c m).restartWindow c = s.copied flip c m.windowRestarted := by
  rw [← State.beginCopies_putComparison, ← State.beginCopies_putComparison, State.restartWindow_putComparison]

theorem State.restartWindow_tellReseed (s : State) (c count : Nat) :
    (s.tellReseed c count).restartWindow c = (s.restartWindow c).tellReseed c count := by
  have told := s.tellReseed_reports c count
  show (s.tellReseed c count).retabled ((s.tellReseed c count).channels.set c _) (s.tellReseed c count).paths (s.tellReseed c count).seed =
    (s.retabled _ s.paths s.seed).tellReseed c count
  rw [State.retabled_tellReseed, told.channels, told.channel, told.paths, told.seed]

section
variable (s : State) {c : Nat} (inTable : c < s.channels.length) (m : ComparisonState)
include inTable

/-- A promotion and the start of a new window after it (R69, R74). -/
theorem State.restartWindow_applyPromotion :
    ((s.putComparison c m).applyPromotion c).restartWindow c = s.copied true c m.promoted.windowRestarted := by
  rw [State.applyPromotion_eq, State.channel_putComparison s c m inTable, State.putComparison_copied, State.restartWindow_copied]

/-- A reseed and the start of a new window after it (R69, R76). -/
theorem State.restartWindow_applyReseed :
    ((s.putComparison c m).applyReseed c).restartWindow c =
      (s.copied false c (m.reseeded s.comparator.reseedLimit).windowRestarted).tellReseed c m.reseedCount := by
  rw [State.applyReseed_eq, State.channel_putComparison s c m inTable, State.putComparison_copied, State.restartWindow_tellReseed,
    State.restartWindow_copied]
  rfl

/-- A taken result: the result, and what falls due (R71 to R73, R76). -/
theorem State.judgeWindow_putComparison :
    (s.putComparison c m).judgeWindow c =
      if s.comparator.promoteCount ≤ (m.judged s.comparator).promoteStreak then
        (s.putComparison c (m.judged s.comparator)).promotionDue c
      else if s.comparator.divergenceCount ≤ (m.judged s.comparator).divergenceStreak then
        (s.putComparison c (m.judged s.comparator)).applyReseed c
      else s.putComparison c (m.judged s.comparator) := by
  have judged := s.putComparison_update c m fun n => n.judged s.comparator
  have read : ((s.putComparison c m).channel c).comparison = m := by rw [s.channel_putComparison c m inTable]
  rw [← judged, read]
  unfold State.judgeWindow
  rw [read]
  rfl

end

/-! ### Stage 7 (R69) -/

theorem State.endWindow_eq (s : State) (c : Nat) :
    s.endWindow c = (if (s.channel c).windowNone s.comparator.window then s else s.judgeWindow c).restartWindow c := rfl

/-- The block that ends its window: NONE, or the result taken, and in both the start of a new window (R69, R70). -/
theorem State.accumulateWindow_ends (s : State) (c : Nat) (x : WindowShare)
    (last : (s.channel c).comparison.count + 1 = s.comparator.window) :
    let counted := s.putComparison c ((s.channel c).comparison.accumulate x)
    (s.NoResult c x → s.accumulateWindow c x = counted.restartWindow c) ∧
      (¬s.NoResult c x → s.accumulateWindow c x = (counted.judgeWindow c).restartWindow c) := by
  intro counted
  have ended : s.accumulateWindow c x = counted.endWindow c := by
    unfold State.accumulateWindow
    exact if_pos last.ge
  have none : (counted.channel c).windowNone counted.comparator.window = true ↔ s.NoResult c x := s.windowNone_iff c x
  rw [ended, State.endWindow_eq]
  refine ⟨fun nothing => ?_, fun taken => ?_⟩
  · rw [if_pos (none.mpr nothing)]
  · rw [if_neg fun h => taken (none.mp h)]

/-- WINDOW_END is stage 7 of the block that ends the window, its share taken from the state that the block finds (R69, R70). -/
theorem exec_windowEnd (s : State) (c capture live background : Nat) (performs : s.performsStages c = true)
    (last : (s.channel c).comparison.count + 1 = s.comparator.window) :
    exec (.windowEnd c capture live background) s =
      .next (s.accumulateWindow c
        { capture := capture, live := live, background := background, far := s.farIndication c,
          disturbed := s.seedingIn c || s.heldIn c }) := by
  show execWindowEnd c capture live background s = _
  unfold execWindowEnd
  rw [performs, decide_eq_true last]
  rfl

theorem State.disturbed_iff (s : State) (c : Nat) :
    (s.seedingIn c || s.heldIn c) = true ↔ ∃ p ∈ (s.channel c).paths, (s.path p).state = .seeding ∨ (s.path p).readHeld = true := by
  simp only [State.seedingIn, State.heldIn, Bool.or_eq_true, List.any_eq_true, beq_iff_eq, ← exists_or, ← and_or_left]

/-- Settles O25: the row, a block inside its window, and the end of a window by its result and what that makes due. -/
theorem windowEndEffect : Obligations.WindowEndEffect := by
  refine ⟨fun s c capture live background run cancel named good last => ?_, fun s c x inside => s.accumulateWindow_goesOn c x inside,
    fun s c x last => ?_⟩
  · have performs : s.performsStages c = true := by
      simp [State.performsStages, run, cancel, good, Option.isSome_iff_ne_none.mpr named]
    rw [exec_windowEnd s c capture live background performs last]
    congr
    · rw [Bool.eq_iff_iff, decide_eq_true_eq]
      exact s.farIndication_iff c
    · rw [Bool.eq_iff_iff, decide_eq_true_eq]
      exact s.disturbed_iff c
  · intro ch m farCount nothing
    obtain ⟨none, taken⟩ := s.accumulateWindow_ends c x last
    rw [State.restartWindow_putComparison] at none
    refine ⟨none, fun some => ?_⟩
    intro captureSum liveSum backgroundSum better worse promote diverge judged result restarted
    have inTable : c < s.channels.length := s.channel_lt_of_paths c fun empty => some (.inr (.inl empty))
    let j := (m.accumulate x).judged s.comparator
    have ended : s.accumulateWindow c x =
        State.restartWindow
          (if s.comparator.promoteCount ≤ j.promoteStreak then (s.putComparison c j).promotionDue c
          else if s.comparator.divergenceCount ≤ j.divergenceStreak then (s.putComparison c j).applyReseed c
          else s.putComparison c j) c := by rw [taken some, s.judgeWindow_putComparison inTable]
    have judgement : j.windowRestarted = judged ∧ j.promoteStreak = promote ∧ j.divergenceStreak = diverge := by
      simp only [j, ComparisonState.judged, ComparisonState.withStreaks_eq, ComparisonState.withResult_eq]
      exact ⟨rfl, rfl, rfl⟩
    clear_value j
    obtain ⟨restart, promotes, diverges⟩ := judgement
    rw [promotes, diverges] at ended
    rw [ended, ← restart]
    refine ⟨fun few fewer => ?_, fun due reading => ?_, fun due idle => ?_, fun few due => ?_⟩
    · rw [if_neg (Nat.not_le.mpr few), if_neg (Nat.not_le.mpr fewer), State.restartWindow_putComparison]
      rfl
    · rw [if_pos due, s.promotionDue_deferred c j reading, State.restartWindow_putComparison]
      rfl
    · rw [if_pos due, s.promotionDue_applied c j idle, s.restartWindow_applyPromotion inTable]
      exact (s.restartWindow_applyPromotion inTable j.windowRestarted).symm
    · rw [if_neg (Nat.not_le.mpr few), if_pos due, s.restartWindow_applyReseed inTable]
      exact (s.restartWindow_applyReseed inTable j.windowRestarted).symm

end Sys2Proof.Machine
end

section
/-! RESET FULL and RESET ADAPTATION: both clear every pending promote first, so the abort that follows applies none (R91, R157). -/

namespace Sys2Proof.Machine

open Sys2Proof.Safety

/-! ### The abort of a readback where no pending promote stands (R75, R152) -/

theorem State.clearAllPending_settled (s : State) (c : Nat) : (s.clearAllPending.channel c).comparison.pendingPromote = false := by
  by_cases hc : c < s.channels.length
  · unfold State.clearAllPending
    rw [s.channel_map _ hc]
  · rw [State.channel, List.getD_eq_default _ _ (by simpa [State.clearAllPending] using hc)]
    rfl

/-- What the abort can do where no pending promote stands: the ABORTED packet, and of the path read its read-held flag alone (R152). -/
theorem State.abortReadback_cases (s : State) (settled : ∀ c, (s.channel c).comparison.pendingPromote = false) :
    let closed := s.setStreamer (abortedWhere (fun _ => true) s.control.streamer)
    s.abortReadback = closed ∨ ∃ rb, s.abortReadback = closed.unheld rb := by
  unfold State.abortReadback
  split
  · next rb reading =>
    rw [reading]
    rcases (s.setStreamer (.closing rb)).finishReadback_cases rb with ⟨finished, -⟩ | ⟨c, -, pending, -⟩
    · exact .inr ⟨rb, finished⟩
    · cases (settled c).symm.trans pending
  · next idle => exact .inl (by rw [idle, abortedWhere, ← idle, State.setStreamer_self])
  · next rb closing => exact .inl (by rw [closing, abortedWhere, ← closing, State.setStreamer_self])

/-- The abort touches neither the fault unit nor what waits (R152). -/
theorem State.abortReadback_unit_pending (s : State) (settled : ∀ c, (s.channel c).comparison.pendingPromote = false) :
    s.abortReadback.unit = s.unit ∧ s.abortReadback.pending = s.pending := by
  rcases s.abortReadback_cases settled with ended | ⟨rb, ended⟩
  · rw [ended]
    exact ⟨rfl, rfl⟩
  · rw [ended, State.unheld_eq]
    exact ⟨rfl, rfl⟩

/-! ### RESET FULL (R157, R170) -/

theorem State.resetFull_eq (s : State) :
    s.resetFull =
      { State.reset with
        pending := s.pending
        ports := { State.reset.ports with pinHeld := s.ports.pinHeld, roomTx := s.ports.roomTx, coreTx := s.ports.coreTx }
        unit :=
          { State.reset.unit with cause := .command, status := s.unit.status, record := s.unit.record, multiple := s.unit.multiple }
        control := { State.reset.control with streamer := s.control.streamer.abortedByReset } } := by
  obtain ⟨unit, pending⟩ := s.clearAllPending.abortReadback_unit_pending s.clearAllPending_settled
  unfold State.resetFull
  dsimp only
  rw [unit, pending]
  rfl

/-! ### RESET ADAPTATION (R91, R92) -/

/-- A read-held flag cleared before is cleared again: RESET ADAPTATION sets the record as if it had not been (R92). -/
theorem PathRecord.relearning_unheld (r : PathRecord) (blank : r.state = .unused → r = PathRecord.unused) :
    ({ r with readHeld := false } : PathRecord).relearning = r.relearning := by
  rw [r.relearning_eq blank]
  exact PathRecord.relearning_eq _ fun unused => by rw [blank unused]; rfl

theorem State.relearned_unheld (s : State) (rb : Readback) (blank : UnusedIsBlank s) : (s.unheld rb).relearned = s.relearned := by
  have records : (s.unheld rb).paths.map PathRecord.relearning = s.paths.map PathRecord.relearning := by
    rw [State.unheld_eq]
    split
    · exact List.map_set_same PathRecord.relearning s.paths rb.path PathRecord.unused _
        ((s.path rb.path).relearning_unheld ((unusedIsBlank_iff s).mp blank rb.path))
    · rfl
  have requests : ∀ p, clearOf p ((s.unheld rb).path p) = clearOf p (s.path p) := fun p => by
    rw [State.unheld_path]
    rfl
  unfold State.relearned
  rw [records, funext requests, State.unheld_eq]
  rfl

/-- Of the work that R91 ends, R92 leaves only the streamer's ABORTED packet to be seen. -/
theorem State.relearned_abortReadback (s : State) (blank : UnusedIsBlank s)
    (settled : ∀ c, (s.channel c).comparison.pendingPromote = false) :
    s.abortReadback.relearned = (s.setStreamer (abortedWhere (fun _ => true) s.control.streamer)).relearned := by
  rcases s.abortReadback_cases settled with ended | ⟨rb, ended⟩
  · rw [ended]
  · rw [ended]
    exact State.relearned_unheld _ rb blank

theorem State.relearned_clearAllPending (s : State) : s.clearAllPending.relearned = s.relearned :=
  congrArg s.relearned.setChannels (List.map_map ..)

theorem State.resetAdaptation_settled (s : State) (blank : UnusedIsBlank s) :
    s.resetAdaptation = (s.setStreamer (abortedWhere (fun _ => true) s.control.streamer)).relearned := by
  rw [State.resetAdaptation_eq, s.clearAllPending.relearned_abortReadback blank s.clearAllPending_settled]
  exact (s.setStreamer (abortedWhere (fun _ => true) s.control.streamer)).relearned_clearAllPending

/-- Settles O4: each kind's whole next state, with the pending promotes cleared before the abort. -/
theorem resetCommandEffects : Obligations.ResetCommandEffects := by
  refine ⟨fun s tag accepting => ?_, fun s tag accepting blank => ?_⟩
  · have ran : exec (.resetFull tag) s = _ := exec_taken accepting rfl
    rw [ran, State.resetFull_eq, accepting.1]
    rfl
  · have ran : exec (.resetAdaptation tag) s = _ := exec_taken accepting rfl
    rw [ran, State.resetAdaptation_settled s blank]
    rfl

end Sys2Proof.Machine
end

section
/-! The near indication, the talk flags and the decision table's first match (O30), and the writes of the decision table (O49). -/

namespace Sys2Proof.Machine

open Sys2Proof.Safety

/-! ### Sets of bits -/

/-- Two words agree under a mask when they agree in each bit of it. -/
theorem and_eq_and_iff_getLsbD {w : Nat} (x y m : BitVec w) :
    x &&& m = y &&& m ↔ ∀ i, m.getLsbD i = true → x.getLsbD i = y.getLsbD i := by
  constructor
  · intro same i masked
    have bit := congrArg (·.getLsbD i) same
    simpa only [BitVec.getLsbD_and, masked, Bool.and_true] using bit
  · intro agree
    refine BitVec.eq_of_getLsbD_eq fun i _ => ?_
    rw [BitVec.getLsbD_and, BitVec.getLsbD_and]
    by_cases masked : m.getLsbD i = true
    · rw [agree i masked]
    · rw [Bool.not_eq_true] at masked
      rw [masked, Bool.and_false, Bool.and_false]

theorem and_eq_zero_iff_getLsbD {w : Nat} (x m : BitVec w) : x &&& m = 0 ↔ ∀ i, m.getLsbD i = true → x.getLsbD i = false := by
  simpa using and_eq_and_iff_getLsbD x 0 m

/-- No bit of a word lies outside a mask exactly when each bit of it is in the mask. -/
theorem and_not_eq_zero_iff {w : Nat} (x m : BitVec w) : x &&& ~~~m = 0 ↔ ∀ i, x.getLsbD i = true → m.getLsbD i = true := by
  rw [BitVec.and_comm, and_eq_zero_iff_getLsbD]
  refine forall₂_congr fun i set => ?_
  simp [BitVec.lt_of_getLsbD set]

/-! ### The raw near indication (R97) -/

/-- A comparison with a power of ten below 1, as one of whole numbers. -/
theorem ratioAtLeast_neg_natCast (root a b k : Nat) : ratioAtLeast root a b (-(k : Int)) = decide (b ^ root ≤ a ^ root * 10 ^ k) := by
  simp [ratioAtLeast]

theorem rawNear_iff (d : DetectorState) (floor : Int) (residual estimate : Nat) :
    rawNear d floor residual estimate = true ↔
      fullSine ^ 40 * 10 ^ (floor + 2 * (d.nearThreshold : Int)).toNat ≤
          residual ^ 40 * 10 ^ (-(floor + 2 * (d.nearThreshold : Int))).toNat ∧
        estimate ^ 20 ≤ residual ^ 20 * 10 ^ d.echoMargin := by
  rw [rawNear, ratioAtLeast_neg_natCast, ratioAtLeast, Bool.and_eq_true, decide_eq_true_eq, decide_eq_true_eq]

/-! ### The talk state's flags (R101) -/

theorem TalkState.isNear_iff (t : TalkState) : t.isNear = true ↔ t = .near ∨ t = .double := by cases t <;> decide

theorem TalkState.isDouble_iff (t : TalkState) : t.isDouble = true ↔ t = .double := by cases t <;> decide

/-! ### Entries that fit (R103) -/

/-- F N D C B S U are bits 6 to 0 of the flags (11.3). -/
theorem TalkFlags.bits_getLsbD (g : TalkFlags) :
    g.bits.getLsbD 6 = g.f ∧ g.bits.getLsbD 5 = g.n ∧ g.bits.getLsbD 4 = g.d ∧ g.bits.getLsbD 3 = g.c ∧ g.bits.getLsbD 2 = g.b ∧
      g.bits.getLsbD 1 = g.s ∧ g.bits.getLsbD 0 = g.u := by
  have bits : ∀ f n d c b s u : Bool,
      let word := (TalkFlags.mk f n d c b s u).bits
      word.getLsbD 6 = f ∧ word.getLsbD 5 = n ∧ word.getLsbD 4 = d ∧ word.getLsbD 3 = c ∧ word.getLsbD 2 = b ∧ word.getLsbD 1 = s ∧
        word.getLsbD 0 = u := by decide
  exact bits g.f g.n g.d g.c g.b g.s g.u

/-- An entry fits when it is valid and each bit of its mask is the same in flags and match. -/
theorem DecisionEntry.fits_iff (e : DecisionEntry) (g : TalkFlags) :
    e.fits g = true ↔ e.valid = true ∧ ∀ i, e.mask.getLsbD i = true → g.bits.getLsbD i = e.want.getLsbD i := by
  rw [DecisionEntry.fits, Bool.and_eq_true, beq_iff_eq, and_eq_and_iff_getLsbD]

/-- What holds of each bit of a seven-bit set, bit by bit from the highest. -/
theorem forall_getLsbD_seven (m : BitVec 7) (P : Nat → Prop) :
    (∀ i, m.getLsbD i = true → P i) ↔
      (m.getLsbD 6 = true → P 6) ∧ (m.getLsbD 5 = true → P 5) ∧ (m.getLsbD 4 = true → P 4) ∧ (m.getLsbD 3 = true → P 3) ∧
        (m.getLsbD 2 = true → P 2) ∧ (m.getLsbD 1 = true → P 1) ∧ (m.getLsbD 0 = true → P 0) := by
  refine ⟨fun h => ⟨h 6, h 5, h 4, h 3, h 2, h 1, h 0⟩, fun ⟨h6, h5, h4, h3, h2, h1, h0⟩ i set => ?_⟩
  have inSet : i < 7 := BitVec.lt_of_getLsbD set
  interval_cases i
  exacts [h0 set, h1 set, h2 set, h3 set, h4 set, h5 set, h6 set]

theorem DecisionEntry.fits_iff_flags (e : DecisionEntry) (g : TalkFlags) :
    e.fits g = true ↔
      e.valid = true ∧ (e.mask.getLsbD 6 = true → g.f = e.want.getLsbD 6) ∧ (e.mask.getLsbD 5 = true → g.n = e.want.getLsbD 5) ∧
        (e.mask.getLsbD 4 = true → g.d = e.want.getLsbD 4) ∧ (e.mask.getLsbD 3 = true → g.c = e.want.getLsbD 3) ∧
        (e.mask.getLsbD 2 = true → g.b = e.want.getLsbD 2) ∧ (e.mask.getLsbD 1 = true → g.s = e.want.getLsbD 1) ∧
        (e.mask.getLsbD 0 = true → g.u = e.want.getLsbD 0) := by
  obtain ⟨f, n, d, c, b, s, u⟩ := g.bits_getLsbD
  rw [e.fits_iff, forall_getLsbD_seven, f, n, d, c, b, s, u]

/-! ### The first entry that fits (R105, R106) -/

/-- The indexes of the entries with a mismatch, the first one having index `i`. -/
def mismatchesFrom (i : Nat) (entries : List DecisionEntry) : List Nat :=
  (entries.zipIdx i).filterMap fun x => if x.1.parityBad then some x.2 else none

theorem mismatchesFrom_cons (i : Nat) (e : DecisionEntry) (rest : List DecisionEntry) :
    mismatchesFrom i (e :: rest) = if e.parityBad then i :: mismatchesFrom (i + 1) rest else mismatchesFrom (i + 1) rest := by
  unfold mismatchesFrom
  by_cases bad : e.parityBad = true <;> simp [List.zipIdx_cons, bad]

theorem matchEntries_mismatch (flags : TalkFlags) (i : Nat) {e : DecisionEntry} (rest : List DecisionEntry) (bad : e.parityBad = true) :
    matchEntries flags i (e :: rest) = ((matchEntries flags (i + 1) rest).1, i :: (matchEntries flags (i + 1) rest).2) := by
  rw [matchEntries, if_pos bad]

theorem matchEntries_fit (flags : TalkFlags) (i : Nat) {e : DecisionEntry} (rest : List DecisionEntry) (good : e.parityBad = false)
    (fit : e.fits flags = true) : matchEntries flags i (e :: rest) = (e.action, []) := by
  rw [matchEntries, if_neg (Bool.eq_false_iff.mp good), if_pos fit]

theorem matchEntries_misfit (flags : TalkFlags) (i : Nat) {e : DecisionEntry} (rest : List DecisionEntry) (good : e.parityBad = false)
    (misfit : e.fits flags = false) : matchEntries flags i (e :: rest) = matchEntries flags (i + 1) rest := by
  rw [matchEntries, if_neg (Bool.eq_false_iff.mp good), if_neg (Bool.eq_false_iff.mp misfit)]

/-- Entries that have a mismatch or do not fit are passed over: they add only their mismatches to what the entries after them give. -/
theorem matchEntries_append (flags : TalkFlags) (i : Nat) (before rest : List DecisionEntry)
    (passed : ∀ x ∈ before, x.parityBad = true ∨ x.fits flags = false) :
    matchEntries flags i (before ++ rest) =
      ((matchEntries flags (i + before.length) rest).1, mismatchesFrom i before ++ (matchEntries flags (i + before.length) rest).2) := by
  induction before generalizing i with
  | nil => rfl
  | cons e before ih =>
    have later := ih (i + 1) fun x hx => passed x (List.mem_cons_of_mem e hx)
    rw [Nat.add_right_comm, Nat.add_assoc, ← List.length_cons (a := e)] at later
    rw [List.cons_append, mismatchesFrom_cons]
    cases parity : e.parityBad with
    | true => rw [matchEntries_mismatch flags i _ parity, later, if_pos rfl, List.cons_append]
    | false =>
      have misfit : e.fits flags = false := (passed e List.mem_cons_self).resolve_left (Bool.eq_false_iff.mp parity)
      rw [matchEntries_misfit flags i _ parity misfit, later, if_neg Bool.false_ne_true]

/-- The first entry that fits gives its action, and the entries after it are not read. -/
theorem matchEntries_first (flags : TalkFlags) (i : Nat) (before : List DecisionEntry) (e : DecisionEntry) (after : List DecisionEntry)
    (good : e.parityBad = false) (fit : e.fits flags = true) (passed : ∀ x ∈ before, x.parityBad = true ∨ x.fits flags = false) :
    matchEntries flags i (before ++ e :: after) = (e.action, mismatchesFrom i before) := by
  rw [matchEntries_append flags i before _ passed, matchEntries_fit flags _ _ good fit, List.append_nil]

/-- Where no entry fits, all are read and the default action is given. -/
theorem matchEntries_none (flags : TalkFlags) (i : Nat) (entries : List DecisionEntry)
    (passed : ∀ x ∈ entries, x.parityBad = true ∨ x.fits flags = false) :
    matchEntries flags i entries = (defaultAction, mismatchesFrom i entries) := by
  have all := matchEntries_append flags i entries [] passed
  rwa [List.append_nil, matchEntries, List.append_nil] at all

/-- Settles O30: the comparisons, the talk state's table, and the match of the entries past those passed over. -/
theorem talkStateAndMatching : Obligations.TalkStateAndMatching := by
  refine ⟨rawNear_iff, ⟨rfl, rfl, rfl, rfl⟩, fun t => ⟨t.isNear_iff, t.isDouble_iff⟩, DecisionEntry.fits_iff_flags,
    fun flags entries i => ⟨fun before e after parts good fit passed => ?_, fun passed => ?_⟩⟩
  · rw [parts, matchEntries_first flags i before e after good fit passed]
    exact ⟨rfl, rfl⟩
  · rw [matchEntries_none flags i entries passed]
    exact ⟨rfl, rfl⟩

/-! ### WRITE DECISION and SELECT DECISION BANK (R108, R109, R111) -/

/-- The reserved bits of a control byte are bits 2 to 4 (11.4). -/
theorem control_reserved_iff (control : Byte) :
    control &&& 0x1C = 0 ↔ control.getLsbD 2 = false ∧ control.getLsbD 3 = false ∧ control.getLsbD 4 = false := by
  rw [and_eq_zero_iff_getLsbD]
  refine ⟨fun h => ⟨h 2 rfl, h 3 rfl, h 4 rfl⟩, fun ⟨h2, h3, h4⟩ i reserved => ?_⟩
  have inByte : i < 8 := BitVec.lt_of_getLsbD reserved
  have which : ∀ k < 8, (0x1C : Byte).getLsbD k = true → k = 2 ∨ k = 3 ∨ k = 4 := by decide
  rcases which i inByte reserved with rfl | rfl | rfl
  exacts [h2, h3, h4]

/-- The two RANGE checks of R108 pass exactly for operands in their ranges with a match inside the mask. -/
theorem writeDecision_ranges (bank entry control mask want target : Byte) :
    ¬(1 < bank.toNat ∨ 15 < entry.toNat ∨ control &&& 0x1C ≠ 0 ∨ mask.getLsbD 7 ∨ want.getLsbD 7 ∨ 45 < target.toNat ∨
          target.toNat % 3 ≠ 0) ∧
        want &&& ~~~mask = 0 ↔
      bank.toNat ≤ 1 ∧ entry.toNat ≤ 15 ∧ control.getLsbD 2 = false ∧ control.getLsbD 3 = false ∧ control.getLsbD 4 = false ∧
        mask.getLsbD 7 = false ∧ want.getLsbD 7 = false ∧ target.toNat ≤ 45 ∧ target.toNat % 3 = 0 ∧
        ∀ i, want.getLsbD i = true → mask.getLsbD i = true := by
  rw [and_not_eq_zero_iff]
  simp only [not_or, Nat.not_lt, ne_eq, not_not, control_reserved_iff, Bool.not_eq_true, and_assoc]

theorem decisionEntryOf_eq (control mask want target : Byte) :
    decisionEntryOf control mask want target =
      { valid := control.getLsbD 7, mask := mask.setWidth 7, want := want.setWidth 7, adapt := control.getLsbD 6,
        stepScale := (control &&& 3).toNat, target := target.toNat, fill := control.getLsbD 5, parityBad := false } := by
  have scale : (control &&& 3).toNat = control.toNat % 4 := Nat.and_two_pow_sub_one_eq_mod control.toNat 2
  rw [scale, decisionEntryOf]

theorem Decision.putEntry_eq (d : Decision) (bank entry : Nat) (e : DecisionEntry) :
    d.putEntry bank entry e =
      { d with
        bank0 := if bank = 0 then d.bank0.set entry e else d.bank0
        bank1 := if bank = 0 then d.bank1 else d.bank1.set entry e } := by
  unfold Decision.putEntry
  by_cases zero : bank = 0 <;> simp only [zero, if_true, if_false]

/-- Settles O49: the checks of R108 one after another, then the entry put into the bank that is not active. -/
theorem decisionWrites : Obligations.DecisionWrites := by
  refine ⟨fun s tag bank entry control mask want target accepting => ?_, fun s tag bank accepting => ?_⟩
  · intro result inRange e
    have ran : result = _ := exec_taken accepting rfl
    have ranges := writeDecision_ranges bank entry control mask want target
    refine ⟨fun outside => ?_, fun inside active => ?_, fun inside inactive => ?_⟩
    · rw [ran]
      by_cases numbers : 1 < bank.toNat ∨ 15 < entry.toNat ∨ control &&& 0x1C ≠ 0 ∨ mask.getLsbD 7 ∨ want.getLsbD 7 ∨
          45 < target.toNat ∨ target.toNat % 3 ≠ 0
      · rw [if_pos numbers]
        rfl
      · rw [if_neg numbers, if_pos fun matched => outside (ranges.mp ⟨numbers, matched⟩)]
        rfl
    · obtain ⟨numbers, matched⟩ := ranges.mpr inside
      rw [ran, if_neg numbers, if_neg (not_not.mpr matched), if_pos active]
      rfl
    · obtain ⟨numbers, matched⟩ := ranges.mpr inside
      rw [ran, if_neg numbers, if_neg (not_not.mpr matched), if_neg inactive, decisionEntryOf_eq, Decision.putEntry_eq]
      rfl
  · refine Eq.trans (exec_taken (i := .selectDecisionBank tag bank) accepting rfl) ?_
    split <;> rfl

end Sys2Proof.Machine
end

section
/-! The commands that write parameters: WRITE DETECTOR, WRITE SUPPRESSOR, SET NOTICE, SET SAFE ACTION and WRITE FAULT POLICY (O48). -/

namespace Sys2Proof.Machine

open Sys2Proof.Safety

/-! ### Parameters of the control unit and the fault unit (R154, R164, R165) -/

/-- SET SAFE ACTION taken: 0 names pass, 1 names mute, and any other byte neither (R164). -/
theorem exec_setSafeAction {s : State} (tag action : Byte) (accepting : Accepting s) :
    exec (.setSafeAction tag action) s =
      .next
        (if action = 0 then replied { s with unit := { s.unit with safeAction := .pass } } tag 0x84 .done []
        else if action = 1 then replied { s with unit := { s.unit with safeAction := .mute } } tag 0x84 .done []
        else replied s tag 0x84 .range []) := by
  refine Eq.trans (exec_taken (i := .setSafeAction tag action) accepting rfl) ?_
  unfold safeActionOf
  by_cases pass : action = 0
  · rw [if_pos pass, if_pos pass]
    rfl
  · rw [if_neg pass, if_neg pass]
    by_cases mute : action = 1
    · rw [if_pos mute, if_pos mute]
      rfl
    · rw [if_neg mute, if_neg mute]
      rfl

/-- WRITE FAULT POLICY taken: a set of 4096 or more names a bit that is no class (R165, log 18). -/
theorem exec_writeFaultPolicy {s : State} (tag : Byte) (masks severities : Half) (accepting : Accepting s) :
    exec (.writeFaultPolicy tag masks severities) s =
      .next
        (if 4096 ≤ masks.toNat ∨ 4096 ≤ severities.toNat then replied s tag 0x83 .range []
        else
          replied { s with unit := { s.unit with masks := masks.setWidth 12, severities := severities.setWidth 12 } } tag 0x83 .done
            []) := by
  refine Eq.trans (exec_taken (i := .writeFaultPolicy tag masks severities) accepting rfl) ?_
  simp only [namesNoClass_eq, Bool.or_eq_true, decide_eq_true_eq]
  split <;> rfl

/-- Settles O48: each command's one check, and the two answers it decides between. -/
theorem parameterWrites : Obligations.ParameterWrites := by
  refine ⟨fun s tag channel near echo debounce hangover accepting => ?_, fun s tag channel attack release offset accepting => ?_,
    fun s tag accepting => ⟨fun fault state path => ?_, fun action => exec_setSafeAction tag action accepting,
      fun masks severities => exec_writeFaultPolicy tag masks severities accepting⟩⟩
  · refine Eq.trans (exec_taken (i := .writeDetector tag channel near echo debounce hangover) accepting rfl) ?_
    split <;> rfl
  · refine Eq.trans (exec_taken (i := .writeSuppressor tag channel attack release offset) accepting rfl) ?_
    split <;> rfl
  · refine Eq.trans (exec_taken (i := .setNotice tag fault state path) accepting rfl) ?_
    split <;> rfl

end Sys2Proof.Machine
end

section
/-! The suppressor's moves, and the noise register as the feedback's iterates (chapter 7). -/

namespace Sys2Proof.Machine

/-! ### Suppressor and floor (R117, R119 to R121) -/

theorem SuppressorState.movedGain_of_above {p : SuppressorState} {target : Nat} (above : -(2 * (target : Int)) < p.gain) :
    p.movedGain target = max (-(2 * (target : Int))) (p.gain - p.attack) := if_pos above

theorem SuppressorState.movedGain_of_below {p : SuppressorState} {target : Nat} (below : p.gain < -(2 * (target : Int))) :
    p.movedGain target = min (-(2 * (target : Int))) (p.gain + p.release) :=
  (if_neg (not_lt_of_gt below)).trans (if_pos below)

theorem SuppressorState.movedGain_of_reached {p : SuppressorState} {target : Nat} (reached : p.gain = -(2 * (target : Int))) :
    p.movedGain target = p.gain :=
  (if_neg reached.not_gt).trans (if_neg reached.not_lt)

theorem floorAfter_of_far {floor level : Int} (far : floor + 1 < level) : floorAfter floor level = floor + 1 := if_pos far

theorem floorAfter_of_within {floor level : Int} (within : level ≤ floor + 1) : floorAfter floor level = level :=
  if_neg (not_lt_of_ge within)

theorem addsNoise_iff (fill : Bool) (gain : Int) : addsNoise fill gain = true ↔ fill = true ∧ gain < -12 := by
  unfold addsNoise
  rw [Bool.and_eq_true, decide_eq_true_iff]

/-! ### Maps of the register that keep exclusive-or

Such a map is known by its values on the single bits, which is what `bitMapApply` computes from; squaring it then composes it with itself. -/

/-- A map of the register that keeps exclusive-or. -/
def KeepsXor (f : BitVec 23 → BitVec 23) : Prop := ∀ a b, f (a ^^^ b) = f a ^^^ f b

theorem KeepsXor.map_zero {f : BitVec 23 → BitVec 23} (keeps : KeepsXor f) : f 0 = 0 := by
  simpa using keeps 0 0

/-- A column is gated by an exclusive-or as by its two sides, one after the other. -/
theorem gate_xor (p q : Bool) (column : BitVec 23) :
    (if p ^^ q then column else 0) = (if p then column else 0) ^^^ (if q then column else 0) := by
  cases p <;> cases q <;> simp

theorem bitMapApply_keepsXor (columns : List (BitVec 23)) (i : Nat) : KeepsXor (bitMapApply columns i) := by
  intro a b
  induction columns generalizing i with
  | nil => simp [bitMapApply]
  | cons column rest ih =>
    unfold bitMapApply
    rw [ih, BitVec.getLsbD_xor, gate_xor]
    ac_rfl

/-- To map the columns is to map the result. -/
theorem bitMapApply_map {f : BitVec 23 → BitVec 23} (keeps : KeepsXor f) (columns : List (BitVec 23)) (i : Nat) (r : BitVec 23) :
    bitMapApply (columns.map f) i r = f (bitMapApply columns i r) := by
  induction columns generalizing i with
  | nil => exact keeps.map_zero.symm
  | cons column rest ih =>
    rw [List.map_cons, bitMapApply, bitMapApply, keeps, ih]
    split
    · rfl
    · rw [keeps.map_zero]

/-- The single bits from bit `i` on, as columns, give back those bits of the register. -/
theorem bitMapApply_units_getLsbD (count i : Nat) (r : BitVec 23) (j : Nat) :
    (bitMapApply ((List.range' i count).map fun k => 1#23 <<< k) i r).getLsbD j =
      (decide (i ≤ j ∧ j < i + count) && r.getLsbD j) := by
  induction count generalizing i with
  | zero => simp [bitMapApply]
  | succ n ih =>
    rw [List.range'_succ, List.map_cons, bitMapApply, BitVec.getLsbD_xor, ih]
    have bit : (if r.getLsbD i then 1#23 <<< i else 0).getLsbD j = (decide (i = j) && r.getLsbD j) := by
      by_cases same : i = j
      · subst same
        by_cases inside : i < 23
        · cases r.getLsbD i <;> simp [inside]
        · rw [BitVec.getLsbD_of_ge r i (by omega), BitVec.getLsbD_of_ge _ i (by omega), Bool.and_false]
      · cases r.getLsbD i
        · simp [same]
        · simp [same]
          omega
    rw [bit, ← Bool.and_xor_distrib_right]
    congr 1
    by_cases same : i = j
    · subst same
      simp
    · rw [decide_eq_false same, Bool.false_xor, decide_eq_decide]
      omega

theorem bitMapApply_units (r : BitVec 23) : bitMapApply ((List.range 23).map fun k => 1#23 <<< k) 0 r = r := by
  refine BitVec.eq_of_getLsbD_eq fun j inside => ?_
  rw [List.range_eq_range', bitMapApply_units_getLsbD]
  simp [inside]

/-! ### The register at a position (R120) -/

theorem noiseNext_keepsXor : KeepsXor noiseNext := by
  intro a b
  unfold noiseNext
  have feedback : ((a ^^^ b).getLsbD 22 ^^ (a ^^^ b).getLsbD 17) =
      ((a.getLsbD 22 ^^ a.getLsbD 17) ^^ (b.getLsbD 22 ^^ b.getLsbD 17)) := by
    rw [BitVec.getLsbD_xor, BitVec.getLsbD_xor, Bool.xor_assoc, Bool.xor_assoc, Bool.xor_left_comm (b.getLsbD 22)]
  rw [feedback, BitVec.shiftLeft_xor_distrib, gate_xor]
  ac_rfl

theorem bitMapApply_noiseMap (r : BitVec 23) : bitMapApply noiseMap 0 r = noiseNext r := by
  have columns : noiseMap = ((List.range 23).map fun k => 1#23 <<< k).map noiseNext := by
    rw [List.map_map]
    rfl
  rw [columns, bitMapApply_map noiseNext_keepsXor, bitMapApply_units]

/-- The bit that the move shifts in fills an empty place. -/
theorem noiseNext_eq_or (r : BitVec 23) : noiseNext r = (r <<< 1) ||| (if r.getLsbD 22 ^^ r.getLsbD 17 then 1 else 0) := by
  unfold noiseNext
  split
  · refine BitVec.eq_of_getLsbD_eq fun i inside => ?_
    cases i <;> simp
  · simp

/-- A jump is as many single applications (log 26). -/
theorem noiseJump_eq_iterate (bits n : Nat) (m : List (BitVec 23)) (r : BitVec 23) (h : n < 2 ^ bits) :
    noiseJump bits n m r = (bitMapApply m 0)^[n] r := by
  induction bits generalizing n m r with
  | zero =>
    obtain rfl : n = 0 := by omega
    rfl
  | succ bits ih =>
    have squared : bitMapApply (m.map (bitMapApply m 0)) 0 = (bitMapApply m 0)^[2] :=
      funext (bitMapApply_map (bitMapApply_keepsXor m 0) m 0)
    have last : (if n % 2 = 1 then bitMapApply m 0 r else r) = (bitMapApply m 0)^[n % 2] r := by
      rcases Nat.mod_two_eq_zero_or_one n with even | odd
      · rw [even]
        rfl
      · rw [odd]
        rfl
    rw [noiseJump, ih _ _ _ (by omega), squared, last, ← Function.iterate_mul, ← Function.iterate_add_apply, Nat.div_add_mod]

theorem noiseRegister_eq_iterate {p : Nat} (h : p < 8388608) : noiseRegister p = noiseNext^[p] (BitVec.allOnes 23) := by
  rw [noiseRegister, noiseJump_eq_iterate _ _ _ _ h, funext bitMapApply_noiseMap]

/-- Settles O31: each move by the row of its table, and the register as the iterates of its feedback. -/
theorem suppressorAndNoise : Obligations.SuppressorAndNoise := by
  refine ⟨fun p near fill energy target => ?_, rfl, fun p h => ?_⟩
  · refine ⟨SuppressorState.movedGain_of_above, SuppressorState.movedGain_of_below, SuppressorState.movedGain_of_reached,
      fun held => if_pos held, fun free => ?_, ?_, rfl, rfl, rfl⟩
    · have floor : (p.update near energy target fill).floor = floorAfter p.floor (quarterLevel energy) := if_neg (by simp [free])
      rw [floor]
      exact ⟨fun below => floorAfter_of_within (by omega), floorAfter_of_far, fun _ => floorAfter_of_within⟩
    · simp only [SuppressorState.update, addsNoise_iff]
  · rw [noiseRegister_eq_iterate h, Function.iterate_succ_apply', ← noiseRegister_eq_iterate (by omega), noiseNext_eq_or]

end Sys2Proof.Machine
end

section
/-! The output samples of stage 6 (chapter 7): the linear gain and the noise size as exact roots, and the output as the nearest code (O32). -/

namespace Sys2Proof.Machine

/-! ### Exact roots -/

/-- The search ends between a number that passes and a next one that fails. -/
theorem largestPassing_spec (test : Nat → Bool) (bits acc : Nat) (passes : test acc = true) (fails : test (acc + 2 ^ bits) = false) :
    test (largestPassing test bits acc) = true ∧ test (largestPassing test bits acc + 1) = false := by
  induction bits generalizing acc with
  | zero => exact ⟨passes, fails⟩
  | succ k ih =>
    unfold largestPassing
    split
    · next higher =>
      refine ih _ higher ?_
      rwa [add_assoc, ← two_mul, ← pow_succ']
    · next lower => exact ih acc passes (Bool.eq_false_iff.mpr lower)

/-- Where the test compares with a real number, the search finds that number rounded down. -/
theorem largestPassing_floor {test : Nat → Bool} {value : ℝ} {bits : Nat} (compares : ∀ y, test y = true ↔ (y : ℝ) ≤ value)
    (nonneg : 0 ≤ value) (bounded : value < 2 ^ bits) :
    (largestPassing test bits 0 : ℝ) ≤ value ∧ value < largestPassing test bits 0 + 1 := by
  have fails : ∀ y : Nat, test y = false ↔ value < y := fun y => by rw [← Bool.not_eq_true, compares, not_le]
  obtain ⟨low, high⟩ := largestPassing_spec test bits 0 ((compares 0).mpr (by simpa using nonneg)) ((fails _).mpr (by simpa using bounded))
  exact ⟨(compares _).mp low, by simpa using (fails _).mp high⟩

/-! ### The linear gain (R118) -/

/-- The linear gain lies within half a step of the root of 10^(gain/40). -/
theorem linearGain_spec {n : Nat} (low : 1 ≤ n) (high : n ≤ 90) :
    1 ≤ linearGain (-(n : Int)) ∧ (2 * linearGain (-(n : Int)) - 1) ^ 40 * 10 ^ n ≤ 2 ^ 960 ∧
      2 ^ 960 ≤ (2 * linearGain (-(n : Int)) + 1) ^ 40 * 10 ^ n := by
  have powers : 1 ≤ 10 ^ n ∧ 10 ^ n ≤ 10 ^ 90 := ⟨Nat.one_le_pow _ _ (by norm_num), Nat.pow_le_pow_right (by norm_num) high⟩
  have gain : linearGain (-(n : Int)) =
      (largestPassing (fun r => decide (r ^ 40 * 10 ^ n ≤ 2 ^ 960)) 25 0 + 1) / 2 := by
    rw [linearGain, if_neg (by omega), neg_neg, Int.toNat_natCast]
  obtain ⟨fits, exceeds⟩ := largestPassing_spec (fun r => decide (r ^ 40 * 10 ^ n ≤ 2 ^ 960)) 25 0
    (decide_eq_true (by rw [zero_pow (by norm_num), zero_mul]; exact Nat.zero_le _)) (decide_eq_false (by norm_num; omega))
  rw [gain]
  generalize largestPassing (fun r => decide (r ^ 40 * 10 ^ n ≤ 2 ^ 960)) 25 0 = root at fits exceeds ⊢
  replace fits := of_decide_eq_true fits
  replace exceeds := of_decide_eq_false exceeds
  have nonzero : root ≠ 0 := by
    rintro rfl
    norm_num at exceeds
    omega
  refine ⟨by omega, le_trans ?_ fits, le_trans (not_le.mp exceeds).le ?_⟩
  · gcongr
    omega
  · gcongr
    omega

/-- The linear gain is at most 1. -/
theorem linearGain_le {n : Nat} (low : 1 ≤ n) (high : n ≤ 90) : linearGain (-(n : Int)) ≤ 8388608 := by
  obtain ⟨-, within, -⟩ := linearGain_spec low high
  have root : (2 * linearGain (-(n : Int)) - 1) ^ 40 ≤ (2 ^ 24) ^ 40 := by
    calc _ ≤ _ := Nat.le_mul_of_pos_right _ (by positivity)
      _ ≤ _ := within
      _ = (2 ^ 24) ^ 40 := by rw [← pow_mul]
  have := le_of_pow_le_pow_left₀ (by norm_num) (by norm_num) root
  omega

/-! ### The noise size (R119) -/

/-- The amplitude whose square is the energy at a fill level in steps of 0.25 dB, full scale being 1. -/
noncomputable def fillAmplitude (fillLevel : Int) : ℝ := Real.sqrt ((1 / 2) * (10 : ℝ) ^ ((fillLevel : ℝ) / 40))

theorem fillAmplitude_nonneg (fillLevel : Int) : 0 ≤ fillAmplitude fillLevel := Real.sqrt_nonneg _

/-- The 80th power of the amplitude is rational. -/
theorem fillAmplitude_pow (fillLevel : Int) :
    fillAmplitude fillLevel ^ 80 * (2 ^ 40 * 10 ^ (-fillLevel).toNat) = 10 ^ fillLevel.toNat := by
  have square : fillAmplitude fillLevel ^ 2 = (1 / 2) * (10 : ℝ) ^ ((fillLevel : ℝ) / 40) := Real.sq_sqrt (by positivity)
  have root : ((10 : ℝ) ^ ((fillLevel : ℝ) / 40)) ^ 40 = (10 : ℝ) ^ fillLevel := by
    rw [← Real.rpow_natCast, ← Real.rpow_mul (by norm_num), ← Real.rpow_intCast]
    norm_num
  have signs : (10 : ℝ) ^ fillLevel * 10 ^ (-fillLevel).toNat = 10 ^ fillLevel.toNat := by
    rw [← zpow_natCast, ← zpow_natCast, ← zpow_add₀ (by norm_num)]
    congr 1
    omega
  rw [show 80 = 2 * 40 from rfl, pow_mul, square, mul_pow, root, ← signs]
  ring

theorem fillAmplitude_lt_two {fillLevel : Int} (high : fillLevel ≤ 24) : fillAmplitude fillLevel < 2 := by
  refine lt_of_pow_lt_pow_left₀ 80 (by norm_num) ?_
  have whole : (10 : ℝ) ^ fillLevel.toNat ≤ 10 ^ 24 := pow_le_pow_right₀ (by norm_num) (by omega)
  have one : (1 : ℝ) ≤ 10 ^ (-fillLevel).toNat := one_le_pow₀ (by norm_num)
  calc fillAmplitude fillLevel ^ 80
      ≤ fillAmplitude fillLevel ^ 80 * (2 ^ 40 * 10 ^ (-fillLevel).toNat) :=
        le_mul_of_one_le_right (pow_nonneg (fillAmplitude_nonneg _) _) (one_le_mul_of_one_le_of_one_le (by norm_num) one)
    _ = 10 ^ fillLevel.toNat := fillAmplitude_pow fillLevel
    _ ≤ 10 ^ 24 := whole
    _ < 2 ^ 80 := by norm_num

/-- The exact size of a noise sample, in units of 2^-46. -/
noncomputable def exactNoise (gain : Nat) (fillLevel : Int) : ℝ := ((8388608 * (8388608 - gain) : Nat) : ℝ) * fillAmplitude fillLevel

/-- The whole-number test of the noise size compares with a factor times the amplitude. -/
theorem noise_test_iff (factor y : Nat) (fillLevel : Int) :
    y ^ 80 * 2 ^ 40 * 10 ^ (-fillLevel).toNat ≤ factor ^ 80 * 10 ^ fillLevel.toNat ↔ (y : ℝ) ≤ factor * fillAmplitude fillLevel := by
  have size : 0 ≤ factor * fillAmplitude fillLevel := mul_nonneg (Nat.cast_nonneg _) (fillAmplitude_nonneg _)
  have scaled : (factor : ℝ) ^ 80 * 10 ^ fillLevel.toNat =
      (factor * fillAmplitude fillLevel) ^ 80 * (2 ^ 40 * 10 ^ (-fillLevel).toNat) := by
    rw [← fillAmplitude_pow, mul_pow, mul_assoc]
  rw [← pow_le_pow_iff_left₀ (Nat.cast_nonneg y) size (show 80 ≠ 0 by norm_num), ← Nat.cast_le (α := ℝ)]
  simp only [Nat.cast_mul, Nat.cast_pow, Nat.cast_ofNat]
  rw [scaled, mul_assoc]
  exact mul_le_mul_iff_left₀ (show (0 : ℝ) < 2 ^ 40 * 10 ^ (-fillLevel).toNat by positivity)

/-- The noise size is the exact size rounded down. -/
theorem noiseSize_spec (gain : Nat) {fillLevel : Int} (high : fillLevel ≤ 24) :
    (noiseSize gain fillLevel : ℝ) ≤ exactNoise gain fillLevel ∧ exactNoise gain fillLevel < noiseSize gain fillLevel + 1 := by
  have factor : ((8388608 * (8388608 - gain) : Nat) : ℝ) ≤ 2 ^ 46 := by
    exact_mod_cast (show 8388608 * (8388608 - gain) ≤ 2 ^ 46 by omega)
  refine largestPassing_floor (fun y => decide_eq_true_iff.trans (noise_test_iff _ y fillLevel))
    (mul_nonneg (Nat.cast_nonneg _) (fillAmplitude_nonneg _)) ?_
  calc exactNoise gain fillLevel
      ≤ 2 ^ 46 * 2 := mul_le_mul factor (fillAmplitude_lt_two high).le (fillAmplitude_nonneg _) (by positivity)
    _ < 2 ^ 48 := by norm_num

/-! ### The rounding of a sample with noise (R118, R119) -/

/-- A whole number plus a size that is known rounded down: the quotient rounds the exact sum to the nearest. Where the size is subtracted,
a size that is a whole number could meet the midpoint, and then both codes are nearest. -/
theorem filled_quotient_near (product : Int) {size : Nat} {value : ℝ} (low : (size : ℝ) ≤ value) (high : value < size + 1)
    (positive : Bool) :
    |(((product + 4194304 + (if positive then (size : Int) else -(size + 1 : Int))) / 8388608 : Int) : ℝ) -
      (product + (if positive then value else -value)) / 8388608| ≤ 1 / 2 := by
  generalize whole : product + 4194304 + (if positive then (size : Int) else -(size + 1 : Int)) = sum
  have below : (8388608 : ℝ) * (sum / 8388608 : Int) ≤ sum := by exact_mod_cast Int.mul_ediv_self_le (x := sum) (by norm_num)
  have above : (sum : ℝ) + 1 ≤ 8388608 * (sum / 8388608 : Int) + 8388608 := by
    exact_mod_cast Int.lt_mul_ediv_self_add (x := sum) (k := 8388608) (by norm_num)
  rw [abs_le]
  cases positive <;> simp only [Bool.false_eq_true, if_true, if_false] at whole ⊢
  all_goals
    have wholeReal := congrArg (Int.cast (R := ℝ)) whole
    push_cast at wholeReal
    constructor <;> linarith

/-! ### The noise bits (R120) -/

theorem noiseAfter_eq_iterate (n : Nat) (r : BitVec 23) : noiseAfter n r = noiseNext^[n] r := by
  induction n generalizing r with
  | zero => rfl
  | succ n ih => exact ih (noiseNext r)

theorem noiseSigns_getElem? (count : Nat) (r : BitVec 23) {n : Nat} (h : n < count) :
    (noiseSigns count r)[n]? = some ((noiseAfter n r).getLsbD 22) := by
  induction count generalizing r n with
  | zero => exact absurd h (Nat.not_lt_zero n)
  | succ count ih =>
    cases n with
    | zero => rfl
    | succ n => exact ih (noiseNext r) (by omega)

/-- The register returns to its start after 8388607 positions. -/
theorem noiseNext_period : Function.IsPeriodicPt noiseNext 8388607 (BitVec.allOnes 23) := by
  have returns : noiseRegister 8388607 = BitVec.allOnes 23 := by decide +kernel
  rwa [noiseRegister_eq_iterate (by norm_num)] at returns

theorem noiseAfter_noiseRegister {position : Nat} (inside : position < 8388607) (n : Nat) :
    noiseAfter n (noiseRegister position) = noiseRegister ((position + n) % 8388607) := by
  rw [noiseAfter_eq_iterate, noiseRegister_eq_iterate (by omega), noiseRegister_eq_iterate (by omega), ← Function.iterate_add_apply,
    noiseNext_period.iterate_mod_apply, add_comm]

/-! ### The output of stage 6 -/

theorem suppressedSamples_of_noNoise (residual : Slot) {gain : Int} {fill : Bool} (fillLevel : Int) (position : Nat)
    (plain : addsNoise fill gain ≠ true) :
    suppressedSamples residual gain fill fillLevel position = residual.map fun x => scaledSample x (linearGain gain) := if_neg plain

theorem suppressedSamples_getElem?_of_noise {residual : Slot} {gain : Int} {fill : Bool} (fillLevel : Int) {position n : Nat} {x : Sample}
    (noise : addsNoise fill gain = true) (inside : position < 8388607) (short : residual.length = 64) (hx : residual[n]? = some x) :
    (suppressedSamples residual gain fill fillLevel position)[n]? =
      some (filledSample x (linearGain gain) (noiseSize (linearGain gain) fillLevel)
        ((noiseRegister ((position + n) % 8388607)).getLsbD 22)) := by
  obtain ⟨within, -⟩ := List.getElem?_eq_some_iff.mp hx
  have bit := noiseSigns_getElem? 64 (noiseRegister position) (n := n) (by omega)
  rw [noiseAfter_noiseRegister inside] at bit
  exact (congrArg (·[n]?) (if_pos noise)).trans (List.getElem?_zipWith_eq_some.mpr ⟨x, _, hx, bit, rfl⟩)

/-- Settles O32: the gain and the noise size as exact roots, and the quotient with noise as the nearest code. -/
theorem outputSamplesExact : Obligations.OutputSamplesExact := by
  refine ⟨⟨rfl, fun n => linearGain_spec⟩, fun residual gain fill fillLevel position plain => ?_,
    fun residual gain fillLevel position n x low loud _ high inside short hx => ?_⟩
  · refine suppressedSamples_of_noNoise residual fillLevel position fun noise => ?_
    obtain ⟨filled, loud⟩ := (addsNoise_iff fill gain).mp noise
    rcases plain with unfilled | soft
    · exact absurd (filled.symm.trans unfilled) (by decide)
    · omega
  · intro scale noise
    have gainLe : linearGain gain ≤ 8388608 := by
      have negative : gain = -(gain.natAbs : Int) := by omega
      rw [negative]
      exact linearGain_le (by omega) (by omega)
    have exactSize : exactNoise (linearGain gain) fillLevel = 8388608 * noise := by
      unfold exactNoise noise scale fillAmplitude
      rw [Nat.cast_mul, Nat.cast_sub gainLe]
      push_cast
      ring
    obtain ⟨sizeLe, sizeLt⟩ := noiseSize_spec (linearGain gain) high
    have near := filled_quotient_near (x.toInt * linearGain gain) sizeLe sizeLt
      ((noiseRegister ((position + n) % 8388607)).getLsbD 22)
    refine ⟨_, suppressedSamples_getElem?_of_noise fillLevel ((addsNoise_iff true gain).mpr ⟨rfl, loud⟩) inside short hx, ?_⟩
    convert near using 3
    rw [exactSize]
    unfold scale
    split <;> push_cast <;> ring

end Sys2Proof.Machine
end

section
/-! What the operations leave of the tables' sizes and canonical store, of the packet queues' bounds, and of the laws of the ports: raises and single writes, channel blocks, the seed engine, readbacks, the outbound period. -/

namespace Sys2Proof.Machine

open Sys2Proof.Safety

/-! ### OFFLINE under notices and raises (R162, R166) -/

theorem State.changeOpState_opState (s : State) (new : OpState) : (s.changeOpState new).unit.opState = new := rfl

/-- A raise enters SAFE from a working state, so it neither leaves OFFLINE nor enters it. -/
theorem State.raiseOverflow_offline (s : State) (kind : NoticeKind) (t : Option Byte) :
    (s.raiseOverflow kind t).unit.opState = .offline ↔ s.unit.opState = .offline := by
  unfold State.raiseOverflow
  dsimp only
  split
  · rw [State.setStatus_opState]
  split
  · rw [State.noteRaise_opState]
  split
  · next enters =>
    have working : s.unit.opState ≠ .offline := fun offline => by simp [offline, OpState.working] at enters
    refine iff_of_false (fun offline => ?_) working
    split at offline
    · rw [State.noteRaise_opState, State.changeOpState_opState] at offline
      cases offline
    · cases offline
  · rw [State.noteRaise_opState, State.setStatus_opState]

theorem State.postNotice_offline (s : State) (n : Notice) (t : Option Byte) :
    (s.postNotice n t).unit.opState = .offline ↔ s.unit.opState = .offline := by
  unfold State.postNotice
  split
  · rfl
  · exact s.raiseOverflow_offline _ t

theorem State.enterState_offline (s : State) (new : OpState) (reason : Reason) (t : Option Byte) :
    (s.enterState new reason t).unit.opState = .offline ↔ new = .offline := by
  unfold State.enterState
  dsimp only
  split
  · rw [State.postNotice_offline, State.changeOpState_opState]
  · rw [State.changeOpState_opState]

theorem State.raise_offline (s : State) (c : FaultClass) (x : Subject) (t : Option Byte) :
    (s.raise c x t).unit.opState = .offline ↔ s.unit.opState = .offline := by
  have noted : ((s.setStatus c).noteRaise c x t).unit.opState = s.unit.opState := by rw [State.noteRaise_opState, State.setStatus_opState]
  have told : (if ((s.setStatus c).noteRaise c x t).control.enableFault = true then
      ((s.setStatus c).noteRaise c x t).postNotice (.fault c x) t else (s.setStatus c).noteRaise c x t).unit.opState = .offline ↔
      s.unit.opState = .offline := by
    split
    · rw [State.postNotice_offline, noted]
    · rw [noted]
  unfold State.raise
  dsimp only
  split
  · rw [State.setStatus_opState]
  split
  · rw [State.noteRaise_opState]
  generalize (if ((s.setStatus c).noteRaise c x t).control.enableFault = true then
    ((s.setStatus c).noteRaise c x t).postNotice (.fault c x) t else (s.setStatus c).noteRaise c x t) = u at told ⊢
  split
  · next enters =>
    have working : u.unit.opState ≠ .offline := fun offline => by simp [offline, OpState.working] at enters
    rw [State.enterState_offline]
    exact iff_of_false (by decide) (told.not.mp working)
  · exact told

/-! ### What survives an operation -/

/-- The tables keep their sizes and the store its canonical form, no reply joins its queue, and the other two queues stay in bounds. -/
structure Stored (s t : State) : Prop where
  tables : TablesSized s → TablesSized t
  replies : t.control.replies.length ≤ s.control.replies.length
  notices : s.control.notices.length ≤ 8 → t.control.notices.length ≤ 8
  forward : s.control.forward.length ≤ 8 → t.control.forward.length ≤ 8

theorem Stored.refl (s : State) : Stored s s := ⟨id, le_refl _, id, id⟩

theorem Stored.trans {s t u : State} (h : Stored s t) (k : Stored t u) : Stored s u :=
  ⟨k.tables ∘ h.tables, k.replies.trans h.replies, k.notices ∘ h.notices, k.forward ∘ h.forward⟩

/-- What `Stored` says, and the laws of the ports. -/
structure Steady (s t : State) : Prop extends Stored s t where
  ports : PortsSound s → PortsSound t

theorem Steady.refl (s : State) : Steady s s := ⟨.refl s, id⟩

theorem Steady.trans {s t u : State} (h : Steady s t) (k : Steady t u) : Steady s u :=
  ⟨h.toStored.trans k.toStored, k.ports ∘ h.ports⟩

theorem Steady.foldl {α : Type} (f : State → α → State) (h : ∀ s x, Steady s (f s x)) (l : List α) (s : State) : Steady s (l.foldl f s) := by
  induction l generalizing s with
  | nil => exact .refl s
  | cons x l ih => exact (h s x).trans (ih _)

/-- Sizes and queues are the same where the tables have the same lengths and histories, store and control unit are the same. -/
theorem Stored.of_shape {s t : State} (histories : t.histories = s.histories) (cells : t.pool.cells = s.pool.cells) (control : t.control = s.control)
    (modulators : t.modulators.length = s.modulators.length := by simp)
    (references : t.references.length = s.references.length := by simp)
    (channels : t.channels.length = s.channels.length := by simp)
    (paths : t.paths.length = s.paths.length := by simp)
    (bank0 : t.decision.bank0.length = s.decision.bank0.length := by simp)
    (bank1 : t.decision.bank1.length = s.decision.bank1.length := by simp) : Stored s t := by
  refine ⟨fun h => ?_, by rw [control], by rw [control]; exact id, by rw [control]; exact id⟩
  unfold TablesSized
  rwa [histories, cells, modulators, references, channels, paths, bank0, bank1]

/-- The laws of the ports read the ports, and of the operating state whether it is OFFLINE. -/
theorem PortsSound.congr {s t : State} (ports : t.ports = s.ports) (offline : t.unit.opState = .offline ↔ s.unit.opState = .offline)
    (h : PortsSound s) : PortsSound t := by
  unfold PortsSound at h ⊢
  rwa [ports, ne_eq, offline]

theorem Stored.steady {s t : State} (h : Stored s t) (ports : t.ports = s.ports)
    (offline : t.unit.opState = .offline ↔ s.unit.opState = .offline) : Steady s t := ⟨h, PortsSound.congr ports offline⟩

theorem Reports.stored {s t : State} (h : Reports s t) : Stored s t where
  tables k := by
    unfold TablesSized
    rwa [h.modulators_length, h.references, h.histories, h.channels, h.paths, h.decision, h.pool]
  replies := by rw [h.replies]
  notices := h.bounded
  forward := by rw [h.forward]; exact id

theorem Reports.steady {s t : State} (h : Reports s t) (offline : t.unit.opState = .offline ↔ s.unit.opState = .offline) : Steady s t :=
  h.stored.steady h.ports offline

theorem State.raise_steady (s : State) (c : FaultClass) (x : Subject) (t : Option Byte) : Steady s (s.raise c x t) :=
  (s.raise_reports c x t).steady (s.raise_offline c x t)

theorem State.raiseAll_steady (s : State) (faults : List (FaultClass × Subject)) : Steady s (s.raiseAll faults) := by
  unfold State.raiseAll
  exact Steady.foldl _ (fun s f => s.raise_steady f.1 f.2 none) faults s

theorem State.postNotice_steady (s : State) (n : Notice) (t : Option Byte) : Steady s (s.postNotice n t) :=
  (s.postNotice_reports n t).steady (s.postNotice_offline n t)

/-! ### Single writes -/

theorem State.setPorts_stored (s : State) (x : Ports) : Stored s (s.setPorts x) := .of_shape rfl rfl rfl

/-- The ports replaced by others that have their laws. -/
theorem State.setPorts_steady (s : State) (x : Ports) (h : PortsSound s → PortsSound (s.setPorts x)) : Steady s (s.setPorts x) :=
  ⟨s.setPorts_stored x, h⟩

/-- The ports replaced, but for the fields that their laws read. -/
theorem State.setPorts_steady_beside (s : State) (x : Ports) (lock : x.lock = s.ports.lock := by rfl)
    (acquire : x.acquire = s.ports.acquire := by rfl) (loss : x.loss = s.ports.loss := by rfl)
    (core : x.coreSilence = s.ports.coreSilence := by rfl) (room : x.roomSilence = s.ports.roomSilence := by rfl)
    (origination : x.origination = s.ports.origination := by rfl) (skip : x.skip = s.ports.skip := by rfl)
    (armed : x.armed = s.ports.armed := by rfl) : Steady s (s.setPorts x) := by
  refine s.setPorts_steady x fun h => ?_
  unfold PortsSound LockCounts at h ⊢
  rw [State.setPorts_ports, lock, acquire, loss, core, room, origination, skip, armed]
  exact h

/-- A control unit replaced by one whose queues are no longer. -/
theorem State.setControl_steady (s : State) (x : Control) (replies : x.replies.length ≤ s.control.replies.length := by simp)
    (notices : x.notices.length ≤ s.control.notices.length := by simp)
    (forward : s.control.forward.length ≤ 8 → x.forward.length ≤ 8 := by exact id) : Steady s (s.setControl x) :=
  ⟨⟨id, replies, notices.trans, forward⟩, id⟩

theorem State.setStreamer_steady (s : State) (x : Streamer) : Steady s (s.setStreamer x) := s.setControl_steady _

theorem State.setSeed_steady (s : State) (x : SeedEngine) : Steady s (s.setSeed x) := ⟨.of_shape rfl rfl rfl, id⟩
theorem State.setComparator_steady (s : State) (x : ComparatorParams) : Steady s (s.setComparator x) := ⟨.of_shape rfl rfl rfl, id⟩
theorem State.setPending_steady (s : State) (x : List Instr) : Steady s (s.setPending x) := ⟨.of_shape rfl rfl rfl, id⟩
theorem State.putChannel_steady (s : State) (c : Nat) (x : Channel) : Steady s (s.putChannel c x) := ⟨.of_shape rfl rfl rfl, id⟩
theorem State.putPath_steady (s : State) (p : Nat) (x : PathRecord) : Steady s (s.putPath p x) := ⟨.of_shape rfl rfl rfl, id⟩
theorem State.putReference_steady (s : State) (r : Nat) (x : Reference) : Steady s (s.putReference r x) :=
  ⟨.of_shape rfl rfl rfl, id⟩
theorem State.putModulator_steady (s : State) (r : Nat) (x : Modulator) : Steady s (s.putModulator r x) :=
  ⟨.of_shape rfl rfl rfl, id⟩

theorem State.mapChannels_steady (s : State) (f : Channel → Channel) : Steady s (s.setChannels (s.channels.map f)) :=
  ⟨.of_shape rfl rfl rfl, id⟩

theorem State.mapPaths_steady (s : State) (f : PathRecord → PathRecord) : Steady s (s.setPaths (s.paths.map f)) :=
  ⟨.of_shape rfl rfl rfl, id⟩

/-- The free list replaced. -/
theorem State.setFree_steady (s : State) (free : List Nat) : Steady s (s.setPool { s.pool with free := free }) :=
  ⟨.of_shape rfl rfl rfl, id⟩

theorem State.setUnit_steady (s : State) (u : FaultUnit) (h : u.opState = s.unit.opState) : Steady s (s.setUnit u) :=
  ⟨.of_shape rfl rfl rfl, PortsSound.congr rfl (by rw [State.setUnit_unit, h])⟩

/-- Banks replaced by others of their lengths. -/
theorem State.setDecision_steady (s : State) (d : Decision) (bank0 : d.bank0.length = s.decision.bank0.length)
    (bank1 : d.bank1.length = s.decision.bank1.length) : Steady s (s.setDecision d) :=
  ⟨.of_shape rfl rfl rfl (bank0 := bank0) (bank1 := bank1), id⟩

theorem State.putComparison_steady (s : State) (c : Nat) (m : ComparisonState) : Steady s (s.putComparison c m) := s.putChannel_steady c _

/-- A history replaced by one of 512 blocks, where the table had such histories alone. -/
theorem State.putHistory_steady (s : State) (r : Nat) (x : List Slot)
    (h : (∀ y ∈ s.histories, y.length = 512) → r < s.histories.length → x.length = 512) : Steady s (s.putHistory r x) where
  tables k := by
    obtain ⟨modulators, references, histories, channels, paths, bank0, bank1, blocks, cells⟩ := k
    exact ⟨modulators, references, by simpa using histories, channels, paths, bank0, bank1, List.forall_mem_set blocks (h blocks), cells⟩
  replies := le_refl _
  notices := id
  forward := id
  ports := id

theorem State.writePartition_steady (s : State) (n : Nat) (x : Partition) : Steady s (s.writePartition n x) where
  tables k := by
    obtain ⟨modulators, references, histories, channels, paths, bank0, bank1, blocks, cells⟩ := k
    exact ⟨modulators, references, histories, channels, paths, bank0, bank1, blocks, PartitionStore.wf_write _ _ _ cells⟩
  replies := le_refl _
  notices := id
  forward := id
  ports := id

/-! ### Comparison states, promotions, reseeds -/

theorem OnlyPaths.steady {s t : State} (h : OnlyPaths s t) : Steady s t :=
  (Stored.of_shape h.histories (by rw [h.pool]) h.control (by rw [h.modulators]) (by rw [h.references]) (by rw [h.channels]) h.pathCount
    (by rw [h.decision]) (by rw [h.decision])).steady h.ports (by rw [h.unit])

theorem State.applyPromotion_steady (s : State) (c : Nat) : Steady s (s.applyPromotion c) :=
  (s.beginCopies_only true c).steady.trans (State.putComparison_steady _ c _)

theorem State.applyReseed_steady (s : State) (c : Nat) : Steady s (s.applyReseed c) := by
  have copied := fun m => (s.beginCopies_only false c).steady.trans (State.putComparison_steady _ c m)
  unfold State.applyReseed
  dsimp only
  split
  · exact (copied _).trans (State.raise_steady _ _ _ _)
  · exact copied _

theorem State.judgeWindow_steady (s : State) (c : Nat) : Steady s (s.judgeWindow c) := by
  unfold State.judgeWindow State.promotionDue
  dsimp only
  refine (s.putComparison_steady c (((s.channel c).comparison.withResult s.comparator).withStreaks s.comparator)).trans ?_
  split
  · split
    · exact State.putComparison_steady _ c _
    · exact State.applyPromotion_steady _ c
  split
  · exact State.applyReseed_steady _ c
  · exact .refl _

theorem State.endWindow_steady (s : State) (c : Nat) : Steady s (s.endWindow c) := by
  unfold State.endWindow
  dsimp only
  refine .trans ?_ (State.putComparison_steady _ c _)
  split
  · exact .refl s
  · exact s.judgeWindow_steady c

theorem State.accumulateWindow_steady (s : State) (c : Nat) (x : WindowShare) : Steady s (s.accumulateWindow c x) := by
  have added := s.putComparison_steady c ((s.channel c).comparison.accumulate x)
  unfold State.accumulateWindow
  dsimp only
  split
  · exact added.trans (State.endWindow_steady _ c)
  · exact added

theorem State.resetComparison_steady (s : State) (c : Nat) : Steady s (s.resetComparison c) := s.putComparison_steady c _

theorem State.clearPending_steady (s : State) (c : Nat) : Steady s (s.clearPending c) := s.putComparison_steady c _

theorem State.resetComparisonFully_steady (s : State) (c : Nat) : Steady s (s.resetComparisonFully c) :=
  (s.resetComparison_steady c).trans (State.clearPending_steady _ c)

/-! ### Channel blocks -/

theorem State.clipTest_steady (s : State) (c : Nat) (clipped : Bool) : Steady s (s.clipTest c clipped) := by
  unfold State.clipTest
  dsimp only
  split
  · split
    · split
      · exact (s.putChannel_steady c _).trans (State.raise_steady _ _ _ _)
      · exact s.putChannel_steady c _
    · exact .refl s
  · exact s.putChannel_steady c _

theorem State.moveChain_steady (s : State) (set : SetId) (divisor : Nat) (residual : List Int) (history : List Slot) (age : Nat)
    (ns : List Nat) (xs : List CoeffSet) : Steady s (s.moveChain set divisor residual history age ns xs) := by
  induction ns generalizing s age xs with
  | nil => exact .refl s
  | cons n ns ih =>
    cases xs with
    | nil => exact .refl s
    | cons x xs => exact (s.writePartition_steady n _).trans (ih _ _ _)

theorem State.adaptPath_steady (s : State) (frozen : Bool) (action : Action) (residual : List Int) (r : PathRead) :
    Steady s (s.adaptPath frozen action residual r) := by
  unfold State.adaptPath
  split
  · exact State.moveChain_steady _ _ _ _ _ _ _ _
  · exact .refl s

/-- Stages 2 to 7: two runs of raises, the paths' adaptation, the channel's record, the window (R48). -/
theorem State.cancelBlock_steady (s : State) (c : Nat) (clipped : Bool) (capture : Slot) : Steady s (s.cancelBlock c clipped capture).2 := by
  unfold State.cancelBlock
  dsimp only
  refine .trans ?_ (State.accumulateWindow_steady _ c _)
  refine .trans ?_ (State.putChannel_steady _ c _)
  exact ((s.raiseAll_steady _).trans (State.raiseAll_steady _ _)).trans (Steady.foldl _ (fun t r => t.adaptPath_steady _ _ _ r) _ _)

theorem State.channelBlock_steady (op : OpState) (action : SafeAction) (arrived slots : List Slot) (s : State) (c : Nat) :
    Steady s (State.channelBlock op action arrived (slots, s) c).2 := by
  unfold State.channelBlock
  dsimp only
  split
  · exact s.raise_steady _ _ _
  split
  · exact .refl s
  split
  · exact (s.clipTest_steady c _).trans (State.cancelBlock_steady _ c _ _)
  · exact s.clipTest_steady c _

/-! ### The seed engine and readbacks -/

theorem State.rewritePartition_steady (s : State) (q : SeedRequest) : Steady s (s.rewritePartition q) := by
  unfold State.rewritePartition
  dsimp only
  split
  · exact .refl s
  split
  · exact s.writePartition_steady _ _
  split
  · exact (s.writePartition_steady _ _).trans (State.raise_steady _ _ _ _)
  · exact s.writePartition_steady _ _

theorem State.seedOne_steady (s : State) : Steady s s.seedOne := by
  unfold State.seedOne
  split
  · exact .refl s
  next q rest _ =>
  have written := s.rewritePartition_steady q
  dsimp only
  split
  · have left := written.trans (State.setSeed_steady _ { (s.rewritePartition q).seed with queue := rest })
    unfold State.completeRequest
    dsimp only
    split
    · exact (left.trans (State.putPath_steady _ _ _)).trans (State.postNotice_steady _ _ _)
    · exact left.trans (State.putPath_steady _ _ _)
  · exact written.trans (State.setSeed_steady _ _)

theorem State.seedRun_steady (n : Nat) (s : State) : Steady s (State.seedRun n s) := by
  induction n generalizing s with
  | zero => exact .refl s
  | succ n ih => exact s.seedOne_steady.trans (ih _)

theorem State.takeSeedStep_steady (s : State) : Steady s s.takeSeedStep := by
  unfold State.takeSeedStep State.stepSeed
  split
  · split
    · exact (s.setSeed_steady _).trans (State.seedRun_steady _ _)
    · exact s.setSeed_steady _
  · exact .refl s

theorem State.unheld_steady (s : State) (rb : Readback) : Steady s (s.unheld rb) := by
  unfold State.unheld
  split
  · exact s.putPath_steady _ _
  · exact .refl s

theorem State.finishReadback_steady (s : State) (rb : Readback) : Steady s (s.finishReadback rb) := by
  obtain ⟨ended, -⟩ | ⟨c, -, -, ended⟩ := s.finishReadback_cases rb
  · exact ended ▸ s.unheld_steady rb
  · exact ended ▸ (s.unheld_steady rb).trans (State.applyPromotion_steady _ c)

theorem State.abortReadback_steady (s : State) : Steady s s.abortReadback := by
  unfold State.abortReadback
  split
  · exact (s.setStreamer_steady _).trans (State.finishReadback_steady _ _)
  · exact .refl s
  · exact .refl s

theorem State.grantData_steady (s : State) (rb : Readback) : Steady s (s.grantData rb).2 := by
  have read : Steady s (s.sourceRead rb) := by
    unfold State.sourceRead
    split
    · exact s.raise_steady _ _ _
    · exact .refl s
  unfold State.sourceRead at read
  unfold State.grantData
  dsimp only
  split
  · exact (read.trans (State.setStreamer_steady _ _)).trans (State.finishReadback_steady _ rb)
  · exact read.trans (State.setStreamer_steady _ _)

/-- A grant takes the head of a queue at most (R158, R159). -/
theorem State.arbitrate_steady (s : State) : Steady s s.arbitrate.2 := by
  have decided := s.setControl_steady { s.control with winner := s.control.decide.2 }
  unfold State.arbitrate
  dsimp only
  split
  · exact decided
  · unfold State.grantForward
    split
    · exact decided
    · next p rest queued =>
      exact decided.trans (State.setControl_steady _ _ (forward := by rw [queued]; exact fun h => Nat.le_of_succ_le h))
  · unfold State.grantOwn
    split
    · next queued => exact decided.trans (State.setControl_steady _ _ (replies := by rw [queued]; exact Nat.le_succ _))
    · next _ queued => exact decided.trans (State.setControl_steady _ _ (notices := by rw [queued]; exact Nat.le_succ _))
    · exact decided.trans (State.grantData_steady _ _)
    · exact decided.trans (State.setStreamer_steady _ _)
    · exact decided

theorem State.transmit_steady (s : State) : Steady s s.transmit := by
  unfold State.transmit
  split
  · exact .refl s
  · exact s.arbitrate_steady.trans (State.setPorts_steady_beside _ _)

end Sys2Proof.Machine
end

section
/-! The outbound period keeps the sizes, the bounds and the laws of the ports: the lock's counts, the silence counts, and fault arming (R139 to R142, R162). -/

namespace Sys2Proof.Machine

open Sys2Proof.Safety

/-! ### The lock (R139, R140, R142, R162) -/

theorem State.lockReached_stored (s : State) : Stored s s.lockReached := by
  unfold State.lockReached
  dsimp only
  split
  · exact (s.setPorts_stored _).trans (State.leaveOffline_reports _).stored
  · exact s.setPorts_stored _

theorem State.lossRises_stored (s : State) : Stored s s.lossRises := by
  unfold State.lossRises State.lockLost
  dsimp only
  split
  · split
    · exact (s.setPorts_stored _).trans (State.raise_reports _ _ _ _).stored
    · exact s.setPorts_stored _
  · exact s.setPorts_stored _

theorem State.lockSees_stored (s : State) (x : LockSight) : Stored s (s.lockSees x) := by
  unfold State.lockSees
  split
  case h_3 => exact .refl s
  case h_4 =>
    unfold State.acquisitionRises
    split
    · exact s.lockReached_stored
    · exact s.setPorts_stored _
  case h_8 | h_9 => exact s.lossRises_stored
  all_goals exact s.setPorts_stored _

theorem lockCounts_unlocked {p : Ports} (h : p.lock = .unlocked) : LockCounts p ↔ p.acquire = 0 ∧ p.loss = 0 := by
  unfold LockCounts
  rw [h]

theorem lockCounts_acquiring {p : Ports} (h : p.lock = .acquiring) : LockCounts p ↔ 1 ≤ p.acquire ∧ p.acquire ≤ 15 ∧ p.loss = 0 := by
  unfold LockCounts
  rw [h]

theorem lockCounts_locked {p : Ports} (h : p.lock = .locked) : LockCounts p ↔ p.acquire = 16 ∧ p.loss ≤ 2 ∧ p.armed = true := by
  unfold LockCounts
  rw [h]

/-- The lock's table keeps the agreement of the lock with its counts (R139, R140). -/
theorem LockCounts.sees {p : Ports} (h : LockCounts p) (x : LockSight) : LockCounts (p.sees x) := by
  unfold Ports.sees
  cases lock : p.lock with
  | unlocked =>
    obtain ⟨-, loss⟩ := (lockCounts_unlocked lock).mp h
    cases x with
    | inSequence | gap => exact (lockCounts_acquiring rfl).mpr ⟨Nat.le_refl 1, Nat.le_add_left 1 14, loss⟩
    | lost => exact h
  | acquiring =>
    obtain ⟨low, high, loss⟩ := (lockCounts_acquiring lock).mp h
    cases x with
    | inSequence =>
      dsimp only
      split
      · exact (lockCounts_locked rfl).mpr ⟨rfl, Nat.zero_le 2, rfl⟩
      · exact (lockCounts_acquiring rfl).mpr ⟨Nat.succ_pos _, by dsimp only; omega, loss⟩
    | gap | lost => exact (lockCounts_unlocked rfl).mpr ⟨rfl, loss⟩
  | locked =>
    obtain ⟨acquire, loss, armed⟩ := (lockCounts_locked lock).mp h
    cases x with
    | inSequence => exact (lockCounts_locked rfl).mpr ⟨acquire, Nat.zero_le 2, armed⟩
    | gap | lost =>
      dsimp only
      split
      · exact (lockCounts_unlocked rfl).mpr ⟨rfl, rfl⟩
      · exact (lockCounts_locked rfl).mpr ⟨acquire, by dsimp only; omega, armed⟩

/-- Fault arming and the end of OFFLINE come together, and a loss of the lock changes neither (R142, R162). -/
theorem State.lockSees_awake (s : State) (x : LockSight) (h : s.ports.armed = true ↔ s.unit.opState ≠ .offline) :
    (s.lockSees x).ports.armed = true ↔ (s.lockSees x).unit.opState ≠ .offline := by
  unfold State.lockSees
  split
  case h_4 =>
    unfold State.acquisitionRises
    split
    · unfold State.lockReached
      dsimp only
      split
      · refine iff_of_true ?_ ?_
        · rw [(State.leaveOffline_reports _).ports]
          rfl
        · rw [State.leaveOffline, ne_eq, State.enterState_offline]
          split <;> decide
      · next awake => exact iff_of_true rfl awake
    · exact h
  case h_8 | h_9 =>
    unfold State.lossRises State.lockLost
    dsimp only
    split
    · split
      · rw [State.raise_ports, ne_eq, State.raise_offline]
        exact h
      · exact h
    · exact h
  all_goals exact h

theorem State.lockSees_steady (s : State) (x : LockSight) : Steady s (s.lockSees x) := by
  refine ⟨s.lockSees_stored x, fun ⟨lock, core, room, origination, skip, armed⟩ => ?_⟩
  have awake := s.lockSees_awake x armed
  have counts := LockCounts.sees lock x
  unfold PortsSound
  rw [s.lockSees_ports] at awake ⊢
  refine ⟨counts, ?_, ?_, ?_, ?_, awake⟩ <;> rw [s.ports.sees_kept] <;> assumption

/-! ### The core-silence count (R141, R142) and the period's mark -/

theorem PortsSound.withCoreSilence {s : State} (h : PortsSound s) {n : Nat} (limit : n ≤ 48) :
    PortsSound (s.setPorts { s.ports with coreSilence := n }) := by
  obtain ⟨lock, -, rest⟩ := h
  exact ⟨lock, limit, rest⟩

theorem State.coreSilenceRises_steady (s : State) : Steady s s.coreSilenceRises := by
  have limit : PortsSound s → silenceAfter s.ports.coreSilence ≤ 48 := fun ⟨_, core, _⟩ => by
    unfold silenceAfter
    split <;> omega
  have counted := s.setPorts_steady { s.ports with coreSilence := silenceAfter s.ports.coreSilence } fun h => PortsSound.withCoreSilence h (limit h)
  rw [s.coreSilenceRises_eq]
  dsimp only
  split
  · exact counted.trans (State.raise_steady _ _ _ _)
  · exact counted

theorem State.markPeriod_steady (s : State) : Steady s s.markPeriod := by
  unfold State.markPeriod
  dsimp only
  split <;> exact (s.setSeed_steady _).trans (State.setPorts_steady_beside _ _)

theorem State.openPeriod_steady (s : State) (stepFirst : Bool) : Steady s (s.openPeriod stepFirst) := by
  unfold State.openPeriod
  split
  · exact s.markPeriod_steady.trans (State.takeSeedStep_steady _)
  · exact s.markPeriod_steady

theorem State.judgeHeader_steady (s : State) (seq : Byte) : Steady s (s.judgeHeader seq) :=
  (s.lockSees_steady _).trans (State.setPorts_steady _ _ fun h => PortsSound.withCoreSilence h (Nat.zero_le 48))

theorem State.lostPeriod_steady (s : State) : Steady s s.lostPeriod :=
  (s.markPeriod_steady.trans (State.lockSees_steady _ _)).trans (State.coreSilenceRises_steady _)

/-! ### Taps and silent appends (R41, R42) -/

/-- A block appended to a history of 512 pushes the oldest out (R41). -/
theorem State.appendTo_steady (s : State) (r : Nat) (b : Slot) : Steady s (s.appendTo r b) := by
  refine (s.putHistory_steady r _ fun blocks hr => ?_).trans (State.putReference_steady _ r _)
  have whole : (s.history r).length = 512 := by
    rw [State.history, List.getD_eq_getElem _ _ hr]
    exact blocks _ (List.getElem_mem hr)
  simp [appendBlock, Config.historyBlocks, whole]

theorem State.appendUntrusted_steady (s : State) (r : Nat) : Steady s (s.appendUntrusted r) :=
  ((s.raise_steady _ _ _).trans (State.putModulator_steady _ r _)).trans (State.appendTo_steady _ r silence)

theorem State.tapReference_steady (op : OpState) (slots : List Slot) (s : State) (r : Nat) :
    Steady s (State.tapReference op (slots, s) r).2 := by
  unfold State.tapReference
  dsimp only
  split
  · exact s.appendUntrusted_steady r
  split
  · exact s.appendTo_steady r _
  split
  · exact (s.putModulator_steady r _).trans (State.appendTo_steady _ r _)
  · exact s.appendTo_steady r _

theorem State.tapAll_steady (s : State) (slots : List Slot) : Steady s (s.tapAll slots).2 := by
  have taps : ∀ (op : OpState) (l : List Nat) (acc : List Slot × State), Steady acc.2 (l.foldl (State.tapReference op) acc).2 := by
    intro op l
    induction l with
    | nil => exact fun acc => .refl _
    | cons r l ih => exact fun acc => (State.tapReference_steady op acc.1 acc.2 r).trans (ih _)
  exact taps _ _ (slots, s)

theorem State.silentAppendAll_steady (s : State) : Steady s s.silentAppendAll := by
  refine Steady.foldl _ (fun t r => ?_) _ s
  unfold State.silentAppend
  dsimp only
  split
  · exact t.appendUntrusted_steady r
  split
  · exact (t.putModulator_steady r _).trans (State.appendTo_steady _ r _)
  · exact t.appendTo_steady r _

theorem State.advanceSeq_steady (s : State) : Steady s s.advanceSeq := s.setPorts_steady_beside _

theorem State.outboundBad_steady (s : State) (slots : List Slot) : Steady s (s.outboundBad slots) := by
  have numbered : Steady s (s.raise .headerCrc (.port .core) none).advanceSeq := (s.raise_steady _ _ _).trans (State.advanceSeq_steady _)
  unfold State.outboundBad
  refine .trans ?_ (State.setPorts_steady_beside _ _)
  by_cases running : (s.raise .headerCrc (.port .core) none).advanceSeq.ports.timerRunning = true
  · simpa only [running, if_true] using (numbered.trans (State.lostPeriod_steady _)).trans (State.silentAppendAll_steady _)
  · simpa only [running, Bool.false_eq_true, if_false] using numbered

theorem State.timerExpires_steady (s : State) : Steady s s.timerExpires := by
  have lost := (s.advanceSeq_steady.trans (State.lostPeriod_steady _)).trans (State.silentAppendAll_steady _)
  unfold State.timerExpires
  split
  · dsimp only
    generalize s.advanceSeq.lostPeriod.silentAppendAll = appended at lost ⊢
    exact lost.trans (appended.setPorts_steady_beside _)
  · exact .refl s

end Sys2Proof.Machine
end

section
/-! Every command keeps the sizes, the bounds and the laws of the ports. -/

namespace Sys2Proof.Machine

open Sys2Proof.Safety

/-! ### Taking and checking -/

/-- The sizes, the bounds of the three queues and the laws of the ports survive from one state to the next. -/
structure Lawful (s t : State) : Prop where
  tables : TablesSized s → TablesSized t
  queues : QueuesBounded s → QueuesBounded t
  ports : PortsSound s → PortsSound t

theorem Lawful.refl (s : State) : Lawful s s := ⟨id, id, id⟩

theorem Lawful.trans {s t u : State} (h : Lawful s t) (k : Lawful t u) : Lawful s u :=
  ⟨k.tables ∘ h.tables, k.queues ∘ h.queues, k.ports ∘ h.ports⟩

theorem Steady.lawful {s t : State} (h : Steady s t) : Lawful s t :=
  ⟨h.tables, fun ⟨replies, notices, forward⟩ => ⟨h.replies.trans replies, h.notices notices, h.forward forward⟩, h.ports⟩

/-- A command that is executed finds room for its reply (R144, R147). -/
theorem State.take_lawful (s : State) (code tag : Byte) (f : State → Answer) (h : Steady s (f s).state) : Lawful s (s.take code tag f) := by
  unfold State.take
  split
  · exact (s.raise_steady _ _ _).lawful
  · next room =>
    refine ⟨h.tables, fun ⟨_, notices, forward⟩ => ⟨?_, h.notices notices, h.forward forward⟩, h.ports⟩
    have kept := h.replies
    simp only [Config.replyCapacity] at room
    show ((f s).state.control.replies ++ [_]).length ≤ 16
    rw [List.length_append, List.length_singleton]
    omega

theorem State.checkChannel_steady (s : State) (c : Nat) (tag : Byte) : Steady s (s.checkChannel c tag) := by
  unfold State.checkChannel
  split
  · exact s.raise_steady _ _ _
  · exact .refl s

theorem State.checkReference_steady (s : State) (r : Nat) (tag : Byte) : Steady s (s.checkReference r tag) := by
  unfold State.checkReference
  split
  · exact s.raise_steady _ _ _
  · exact .refl s

theorem State.checkOtherChannels_steady (s : State) (c : Nat) (tag : Byte) : Steady s (s.checkOtherChannels c tag) := by
  refine Steady.foldl _ (fun t k => ?_) _ s
  split
  · exact .refl t
  · exact t.checkChannel_steady k tag

theorem State.checkOtherReferences_steady (s : State) (r : Nat) (tag : Byte) : Steady s (s.checkOtherReferences r tag) := by
  refine Steady.foldl _ (fun t k => ?_) _ s
  split
  · exact .refl t
  · exact t.checkReference_steady k tag

/-! ### The commands of chapter 1 -/

theorem State.allocate_steady (s : State) (p c r n step : Nat) : Steady s (s.allocate p c r n step) := by
  unfold State.allocate
  refine .trans ?_ (State.resetComparisonFully_steady _ c)
  refine .trans ?_ (State.putChannel_steady _ c _)
  refine .trans ?_ (State.setSeed_steady _ _)
  exact (s.setFree_steady _).trans (State.putPath_steady _ p _)

theorem State.takeAllocatePath_lawful (s : State) (tag channel reference : Byte) (length : Half) (step : Byte) :
    Lawful s (s.takeAllocatePath tag channel reference length step) := by
  refine s.take_lawful _ _ _ ?_
  have read2 := s.checkReference_steady reference.toNat tag
  have read4 := read2.trans (State.checkChannel_steady (s.checkReference reference.toNat tag) channel.toNat tag)
  split
  · exact .refl s
  dsimp only
  split
  · exact read2
  split
  · exact read2
  split
  · exact read4
  split
  · exact read4
  split
  · exact read4
  split
  · exact read4
  · exact read4.trans (State.allocate_steady _ _ _ _ _ _)

theorem State.endWorkOn_steady (s : State) (p : Nat) : Steady s (s.endWorkOn p) := by
  have cleared : Steady s (match (s.path p).owner with
      | some c => s.clearPending c
      | none => s) := by
    split
    · exact s.clearPending_steady _
    · exact .refl s
  have ended : ∀ t : State, Steady s t → Steady s (if t.readbackOf p then t.abortReadback else t) := by
    intro t ht
    split
    · exact ht.trans t.abortReadback_steady
    · exact ht
  exact ended _ (cleared.trans (State.setSeed_steady _ _))

theorem State.release_steady (s : State) (p : Nat) : Steady s (s.release p) := by
  have freed := ((s.endWorkOn_steady p).trans (State.setFree_steady _ _)).trans
    (State.putPath_steady ((s.endWorkOn p).returnFree ((s.endWorkOn p).path p).chain) p PathRecord.unused)
  unfold State.release
  dsimp only
  split
  · exact (freed.trans (State.putChannel_steady _ _ _)).trans (State.resetComparisonFully_steady _ _)
  · exact freed

theorem State.resetOwner_steady (s : State) (p : Nat) : Steady s (s.resetOwner p) := by
  unfold State.resetOwner
  split
  · exact s.resetComparisonFully_steady _
  · exact .refl s

theorem State.truncate_steady (s : State) (p n : Nat) : Steady s (s.truncate p n) := by
  unfold State.truncate
  refine .trans ?_ (State.resetOwner_steady _ p)
  exact (s.setFree_steady _).trans (State.putPath_steady _ p _)

theorem State.extend_steady (s : State) (p n : Nat) : Steady s (s.extend p n) := by
  unfold State.extend
  refine .trans ?_ (State.resetOwner_steady _ p)
  refine .trans ?_ (State.setSeed_steady _ _)
  exact (s.setFree_steady _).trans (State.putPath_steady _ p _)

theorem State.takeReleasePath_lawful (s : State) (tag path : Byte) : Lawful s (s.takeReleasePath tag path) := by
  refine s.take_lawful _ _ _ ?_
  split
  · exact .refl s
  split
  · exact .refl s
  · exact s.release_steady _

theorem State.takeResizePath_lawful (s : State) (tag path : Byte) (length : Half) : Lawful s (s.takeResizePath tag path length) := by
  refine s.take_lawful _ _ _ ?_
  have checked : Steady s (match (s.path path.toNat).reference with
      | some k => s.checkReference k tag
      | none => s) := by
    split
    · exact s.checkReference_steady _ _
    · exact .refl s
  split
  · exact .refl s
  split
  · exact .refl s
  split
  · exact .refl s
  dsimp only
  split
  · exact .refl s
  split
  · exact .refl s
  split
  · exact .refl s
  split
  · exact checked.trans (State.truncate_steady _ _ _)
  · exact checked.trans (State.extend_steady _ _ _)

theorem State.takeSetStep_lawful (s : State) (tag path step : Byte) : Lawful s (s.takeSetStep tag path step) := by
  refine s.take_lawful _ _ _ ?_
  split
  · exact .refl s
  split
  · exact .refl s
  split
  · exact .refl s
  · exact s.putPath_steady _ _

/-! ### The commands of chapter 2 -/

theorem State.takeWriteChannel_lawful (s : State) (tag channel slot mode : Byte) : Lawful s (s.takeWriteChannel tag channel slot mode) := by
  refine s.take_lawful _ _ _ ?_
  have others := s.checkOtherChannels_steady channel.toNat tag
  split
  · exact .refl s
  split
  · exact .refl s
  dsimp only
  split
  · exact others
  · exact (others.trans (State.checkChannel_steady _ _ _)).trans (State.putChannel_steady _ _ _)

theorem State.resetUsers_steady (s : State) (r : Nat) : Steady s (s.resetUsers r) := s.mapChannels_steady _

theorem State.writeReference_steady (s : State) (r : Nat) (slot : Option Nat) (bulk depth : Nat) (threshold : Int) (hangover : Nat) :
    Steady s (s.writeReference r slot bulk depth threshold hangover) := by
  have written := s.putReference_steady r
  unfold State.writeReference
  dsimp only
  split
  · refine (((written _).trans (State.putHistory_steady _ r _ fun _ _ => ?_)).trans (State.putModulator_steady _ r _)).trans
      (State.resetUsers_steady _ r)
    exact List.length_replicate
  · split
    · split
      · exact ((written _).trans (State.putModulator_steady _ r _)).trans (State.resetUsers_steady _ r)
      · exact (written _).trans (State.resetUsers_steady _ r)
    · split
      · exact (written _).trans (State.putModulator_steady _ r _)
      · exact written _

theorem State.takeWriteReference_lawful (s : State) (tag reference slot bulk depth : Byte) (threshold : Half) (hangover : Byte) :
    Lawful s (s.takeWriteReference tag reference slot bulk depth threshold hangover) := by
  refine s.take_lawful _ _ _ ?_
  have others := s.checkOtherReferences_steady reference.toNat tag
  split
  · exact .refl s
  dsimp only
  split
  · exact others
  split
  · exact others
  split
  · exact others
  · exact (others.trans (State.checkReference_steady _ _ tag)).trans (State.writeReference_steady _ _ _ _ _ _ _)

/-! ### The commands of chapters 3 to 7 -/

theorem State.freeze_steady (s : State) (c : Nat) (value : Bool) : Steady s (s.freeze c value) := by
  unfold State.freeze
  dsimp only
  split
  · exact .refl s
  split
  · exact (s.putChannel_steady c _).trans (State.resetComparisonFully_steady _ c)
  · exact (s.putChannel_steady c _).trans (State.resetComparison_steady _ c)

theorem State.takeWriteCoeff_lawful (s : State) (tag path : Byte) (index : Half) (taps : Slot) :
    Lawful s (s.takeWriteCoeff tag path index taps) := by
  refine s.take_lawful _ _ _ ?_
  split
  · exact .refl s
  split
  · exact .refl s
  split
  · exact .refl s
  split
  · exact .refl s
  · exact s.writePartition_steady _ _

theorem State.writeComparison_steady (s : State) (p : ComparatorParams) : Steady s (s.writeComparison p) :=
  (s.mapChannels_steady _).trans (State.setComparator_steady _ p)

theorem State.takePromoteChannel_lawful (s : State) (tag channel : Byte) : Lawful s (s.takePromoteChannel tag channel) := by
  refine s.take_lawful _ _ _ ?_
  split
  · exact .refl s
  dsimp only
  split
  · exact .refl s
  split
  · exact .refl s
  · exact s.applyPromotion_steady _

theorem State.takeWriteDecision_lawful (s : State) (tag bank entry control mask want target : Byte) :
    Lawful s (s.takeWriteDecision tag bank entry control mask want target) := by
  have lengths : ∀ e, (s.decision.putEntry bank.toNat entry.toNat e).bank0.length = s.decision.bank0.length ∧
      (s.decision.putEntry bank.toNat entry.toNat e).bank1.length = s.decision.bank1.length := fun e => by
    unfold Decision.putEntry
    split
    · exact ⟨List.length_set, rfl⟩
    · exact ⟨rfl, List.length_set⟩
  refine s.take_lawful _ _ _ ?_
  split
  · exact .refl s
  split
  · exact .refl s
  split
  · exact .refl s
  · exact s.setDecision_steady _ (lengths _).1 (lengths _).2

/-! ### The commands of chapters 9 and 10 -/

theorem State.takeReadPath_lawful (s : State) (tag path set : Byte) (first count : Half) :
    Lawful s (s.takeReadPath tag path set first count) := by
  have started : ∀ rb, Steady s (s.startReadback rb) := by
    intro rb
    unfold State.startReadback
    dsimp only
    split
    · exact (s.setStreamer_steady _).trans (State.putPath_steady _ _ _)
    · exact s.setStreamer_steady _
  refine s.take_lawful _ _ _ ?_
  split
  · exact .refl s
  split
  · exact .refl s
  split
  · exact .refl s
  split
  · exact .refl s
  · exact started _

/-- A mode is entered from a state other than OFFLINE alone (R163). -/
theorem State.enterMode_steady (s : State) (mode : OpState) (tag : Byte) (named : mode ≠ .offline) (awake : s.unit.opState ≠ .offline) :
    Steady s (s.enterMode mode tag) := by
  have entered : ∀ t : State, Steady s t → t.unit = s.unit → Steady s (t.enterState mode .command (some tag)) := fun t ht same =>
    ht.trans ((t.enterState_reports _ _ _).steady (by
      rw [State.enterState_offline, same]
      exact iff_of_false named awake))
  unfold State.enterMode
  split
  · exact entered _ (s.mapChannels_steady _) rfl
  · exact entered s (.refl s) rfl

theorem opStateOf_ne_offline {b : Byte} {m : OpState} (h : opStateOf b = some m) : m ≠ .offline := by
  unfold opStateOf at h
  split at h
  · cases h
    decide
  split at h
  · cases h
    decide
  · cases h

theorem State.takeSetMode_lawful (s : State) (tag mode : Byte) : Lawful s (s.takeSetMode tag mode) := by
  refine s.take_lawful _ _ _ ?_
  split
  · exact .refl s
  next m named =>
  split
  · exact .refl s
  next awake =>
  split
  · exact .refl s
  split
  · exact .refl s
  · exact s.enterMode_steady _ tag (opStateOf_ne_offline named) awake

theorem FaultUnit.clear_opState (u : FaultUnit) (classes : BitVec 12) : (u.clear classes).opState = u.opState := by
  unfold FaultUnit.clear
  dsimp only
  split <;> rfl

/-! ### Resets (R126, R157, R170, R171) -/

theorem tablesSized_reset : TablesSized State.reset := by
  unfold TablesSized State.reset
  refine ⟨List.length_replicate, List.length_replicate, List.length_replicate, by simp, List.length_replicate, rfl, rfl, fun h mem => ?_, rfl⟩
  rw [List.eq_of_mem_replicate mem]
  exact List.length_replicate

theorem portsSound_reset : PortsSound State.reset :=
  ⟨⟨rfl, rfl⟩, Nat.zero_le 48, Nat.zero_le 48, by decide, fun skip => skip, by decide⟩

/-- A reset leaves the tables as power-on does, the queues empty and the part in OFFLINE, whatever it keeps beside them. -/
theorem Steady.of_reset {s t : State} (modulators : t.modulators = State.reset.modulators) (references : t.references = State.reset.references)
    (histories : t.histories = State.reset.histories) (channels : t.channels = State.reset.channels) (paths : t.paths = State.reset.paths)
    (decision : t.decision = State.reset.decision) (pool : t.pool = State.reset.pool) (replies : t.control.replies = [])
    (notices : t.control.notices = []) (forward : t.control.forward = []) (ports : PortsSound t) : Steady s t where
  tables _ := by
    unfold TablesSized
    rw [modulators, references, histories, channels, paths, decision, pool]
    exact tablesSized_reset
  replies := by rw [replies]; exact Nat.zero_le _
  notices _ := by rw [notices]; exact Nat.zero_le _
  forward _ := by rw [forward]; exact Nat.zero_le _
  ports _ := ports

theorem State.takeResetFull_lawful (s : State) (tag : Byte) : Lawful s (s.takeResetFull tag) :=
  s.take_lawful _ _ _ (Steady.of_reset rfl rfl rfl rfl rfl rfl rfl rfl rfl rfl portsSound_reset)

theorem State.takeResetAdaptation_lawful (s : State) (tag : Byte) : Lawful s (s.takeResetAdaptation tag) := by
  have ended : Steady s s.clearAllPending.abortReadback := (s.mapChannels_steady _).trans (State.abortReadback_steady _)
  refine s.take_lawful _ _ _ ?_
  exact ((ended.trans (State.mapPaths_steady _ _)).trans (State.setSeed_steady _ _)).trans (State.mapChannels_steady _ _)

/-! ### Every command -/

theorem State.takeRow_lawful (s : State) (i : Instr) : Lawful s (s.takeRow i) := by
  cases i with
  | allocatePath t channel reference length step => exact s.takeAllocatePath_lawful t channel reference length step
  | releasePath t path => exact s.takeReleasePath_lawful t path
  | resizePath t path length => exact s.takeResizePath_lawful t path length
  | setStep t path step => exact s.takeSetStep_lawful t path step
  | readPathRecord t path =>
    show Lawful s (s.takeReadPathRecord t path)
    refine s.take_lawful _ _ _ ?_
    split <;> exact .refl s
  | readPool t =>
    show Lawful s (s.takeReadPool t)
    exact s.take_lawful _ _ _ (.refl s)
  | readChain t selector start count =>
    show Lawful s (s.takeReadChain t selector start count)
    refine s.take_lawful _ _ _ ?_
    split
    · exact .refl s
    split
    · exact .refl s
    dsimp only
    generalize (if selector = 0xFE then s.pool.free else (s.path selector.toNat).chain) = chain
    split <;> exact .refl s
  | writeChannel t channel slot mode => exact s.takeWriteChannel_lawful t channel slot mode
  | readChannel t channel =>
    show Lawful s (s.takeReadChannel t channel)
    refine s.take_lawful _ _ _ ?_
    split
    · exact .refl s
    · exact s.checkChannel_steady _ t
  | writeReference t reference slot bulk depth threshold hangover =>
    exact s.takeWriteReference_lawful t reference slot bulk depth threshold hangover
  | readReference t reference =>
    show Lawful s (s.takeReadReference t reference)
    refine s.take_lawful _ _ _ ?_
    split
    · exact .refl s
    · exact s.checkReference_steady _ t
  | freezeChannel t channel value =>
    show Lawful s (s.takeFreezeChannel t channel value)
    refine s.take_lawful _ _ _ ?_
    split
    · exact .refl s
    · exact s.freeze_steady _ _
  | writeCoeff t path index taps => exact s.takeWriteCoeff_lawful t path index taps
  | writeComparison t window promoteMargin promoteCount divergenceMargin divergenceCount reseedLimit threshold =>
    show Lawful s (s.takeWriteComparison t window promoteMargin promoteCount divergenceMargin divergenceCount reseedLimit threshold)
    refine s.take_lawful _ _ _ ?_
    dsimp only
    split
    · exact s.writeComparison_steady _
    · exact .refl s
  | promoteChannel t channel => exact s.takePromoteChannel_lawful t channel
  | readChannelStats t channel =>
    show Lawful s (s.takeReadChannelStats t channel)
    refine s.take_lawful _ _ _ ?_
    split <;> exact .refl s
  | readSeedQueue t start count =>
    show Lawful s (s.takeReadSeedQueue t start count)
    refine s.take_lawful _ _ _ ?_
    split <;> exact .refl s
  | writeDetector t channel near echo debounce hangover =>
    show Lawful s (s.takeWriteDetector t channel near echo debounce hangover)
    refine s.take_lawful _ _ _ ?_
    split
    · exact .refl s
    · exact s.putChannel_steady _ _
  | writeDecision t bank entry control mask want target => exact s.takeWriteDecision_lawful t bank entry control mask want target
  | readDecision t bank entry =>
    show Lawful s (s.takeReadDecision t bank entry)
    refine s.take_lawful _ _ _ ?_
    split
    · exact .refl s
    dsimp only
    split
    · exact s.raise_steady _ _ _
    · exact .refl s
  | selectDecisionBank t bank =>
    show Lawful s (s.takeSelectDecisionBank t bank)
    refine s.take_lawful _ _ _ ?_
    split
    · exact .refl s
    · exact s.setDecision_steady _ rfl rfl
  | writeSuppressor t channel attack release offset =>
    show Lawful s (s.takeWriteSuppressor t channel attack release offset)
    refine s.take_lawful _ _ _ ?_
    split
    · exact .refl s
    · exact s.putChannel_steady _ _
  | status t =>
    show Lawful s (s.takeStatus t)
    exact s.take_lawful _ _ _ (.refl s)
  | readPath t path set first count => exact s.takeReadPath_lawful t path set first count
  | abortRead t =>
    show Lawful s (s.takeAbortRead t)
    refine s.take_lawful _ _ _ ?_
    split
    · exact s.abortReadback_steady
    · exact .refl s
  | setNotice t fault state path =>
    show Lawful s (s.takeSetNotice t fault state path)
    refine s.take_lawful _ _ _ ?_
    split
    · exact .refl s
    · exact s.setControl_steady _
  | setMode t mode => exact s.takeSetMode_lawful t mode
  | readFaults t =>
    show Lawful s (s.takeReadFaults t)
    exact s.take_lawful _ _ _ (.refl s)
  | clearFaults t classes =>
    show Lawful s (s.takeClearFaults t classes)
    refine s.take_lawful _ _ _ ?_
    split
    · exact .refl s
    · exact s.setUnit_steady _ (s.unit.clear_opState _)
  | writeFaultPolicy t masks severities =>
    show Lawful s (s.takeWriteFaultPolicy t masks severities)
    refine s.take_lawful _ _ _ ?_
    split
    · exact .refl s
    · exact s.setUnit_steady _ rfl
  | setSafeAction t action =>
    show Lawful s (s.takeSetSafeAction t action)
    refine s.take_lawful _ _ _ ?_
    split
    · exact .refl s
    · exact s.setUnit_steady _ rfl
  | resetFull t => exact s.takeResetFull_lawful t
  | resetAdaptation t => exact s.takeResetAdaptation_lawful t
  | powerOn | resetPinAssert | resetPin | outboundGoodArrival | outboundBadArrival | blockIntervalTimerExpiry | lockAcquired | lockLoss
  | coreSilence | roomSilenceAdvance | roomSilence | inboundGoodArrival | inboundBadArrival | inboundBlockTransmit | seedStep | windowEnd
  | captureClip | activityHangoverExpiry | nearHangoverExpiry => exact .refl s

theorem State.takeCommand_lawful (s : State) (code tag : Byte) (payload : List Byte) : Lawful s (s.takeCommand code tag payload) := by
  unfold State.takeCommand
  split
  · exact s.take_lawful _ _ _ (.refl s)
  split
  · exact s.take_lawful _ _ _ (.refl s)
  split
  · exact s.take_lawful _ _ _ (.refl s)
  · exact s.takeRow_lawful _

end Sys2Proof.Machine
end

section
/-! Every row, and so every step, keeps the sizes, the bounds and the laws of the ports (O55, O58). -/

namespace Sys2Proof.Machine

open Sys2Proof.Safety

theorem Lawful.whilePortsRun {s : State} {f : State → State} (h : Lawful s (f s)) : Lawful s (s.whilePortsRun f) :=
  State.whilePortsRun_keeps (P := Lawful s) (.refl s) f h

theorem State.outboundGood_lawful (s : State) (seq flags : Byte) (slots : List Slot) (window : List Byte) (stepFirst : Bool) :
    Lawful s (s.outboundGood seq flags slots window stepFirst) := by
  have tapped := ((s.openPeriod_steady stepFirst).trans (State.judgeHeader_steady _ seq)).trans (State.tapAll_steady _ slots)
  have consumed : ∀ (t : State) c, Lawful t (t.takeConsumed c) := fun t c => by
    cases c with
    | none => exact .refl t
    | some c => exact t.takeCommand_lawful _ _ _
  unfold State.outboundGood
  refine .trans ?_ (consumed _ _)
  refine .trans ?_ (State.setPorts_steady_beside _ _).lawful
  split
  · exact (tapped.trans (State.raise_steady _ _ _ _)).lawful
  · exact tapped.lawful

theorem State.takeInterlude_lawful (s : State) (x : Interlude) : Lawful s (s.takeInterlude x) := by
  cases x with
  | command code tag payload =>
    exact Lawful.whilePortsRun (f := fun s => s.takeCommand code tag payload) (s.takeCommand_lawful code tag payload)
  | outboundGood seq flags slots window stepFirst => exact (s.outboundGood_lawful seq flags slots window stepFirst).whilePortsRun
  | outboundBad slots => exact (s.outboundBad_steady slots).lawful.whilePortsRun
  | timerExpiry => exact s.timerExpires_steady.lawful
  | seedStep => exact s.takeSeedStep_steady.lawful
  | transmit => exact s.transmit_steady.lawful.whilePortsRun

theorem State.processSlots_lawful (s : State) (between : List (Nat × Interlude)) (slots : List Slot) :
    Lawful s (s.processSlots between slots).2 :=
  State.processSlots_induction (Lawful s) s between slots (.refl s)
    (fun op action arrived slots t c ht => ht.trans (State.channelBlock_steady op action arrived slots t c).lawful)
    fun t x ht => ht.trans (t.takeInterlude_lawful x)

theorem State.sendFiller_lawful (s : State) (between : List (Nat × Interlude)) (slots : List Slot) :
    Lawful s (s.sendFiller between slots) :=
  (s.processSlots_lawful between slots).trans ((State.setPorts_steady_beside _ _).trans (State.setPorts_steady_beside _ _)).lawful

/-- A packet joins the forward FIFO where it has room (R136). -/
theorem State.forwardPacket_lawful (s : State) (flags : Byte) (window : List Byte) : Lawful s (s.forwardPacket flags window) := by
  unfold State.forwardPacket
  split
  · split
    · exact (s.raise_steady _ _ _).lawful
    · split
      · next room => exact (s.setControl_steady _ (forward := fun _ => by rw [List.length_append]; exact room)).lawful
      · exact (s.raise_steady _ _ _).lawful
  · exact .refl s

/-! ### The room-silence count, the origination flag and the skip mark (R134, R135, R138) -/

/-- Count, flag and mark replaced by others that agree. -/
theorem PortsSound.withRoom {s : State} (h : PortsSound s) {count : Nat} {origination skip : Bool} (limit : count ≤ 48)
    (agree : origination = true ↔ count = 48) (marked : skip = true → origination = true) :
    PortsSound (s.setPorts { s.ports with roomSilence := count, origination := origination, skip := skip }) := by
  obtain ⟨lock, core, -, -, -, armed⟩ := h
  exact ⟨lock, core, limit, agree, marked, armed⟩

theorem State.inboundGood_lawful (s : State) (seq flags : Byte) (slots : List Slot) (window : List Byte) (between : List (Nat × Interlude)) :
    Lawful s (s.inboundGood seq flags slots window between) := by
  have heard := s.setPorts_steady { s.ports with roomSilence := 0, origination := false, skip := false } fun h =>
    PortsSound.withRoom h (by decide) (by decide) id
  unfold State.inboundGood
  exact ((heard.lawful.trans (State.processSlots_lawful _ between slots)).trans (State.forwardPacket_lawful _ flags window)).trans
    ((State.setPorts_steady_beside _ _).trans (State.setPorts_steady_beside _ _)).lawful

theorem State.inboundBad_lawful (s : State) (slots : List Slot) (between : List (Nat × Interlude)) :
    Lawful s (s.inboundBad slots between) := by
  have raised := (s.raise_steady .headerCrc (.port .room) none).lawful
  unfold State.inboundBad
  refine .trans ?_ (State.sendFiller_lawful _ between _)
  split
  · next originating =>
    refine raised.trans (State.setPorts_steady _ _ fun h => ?_).lawful
    obtain ⟨-, -, limit, agree, -⟩ := id h
    exact PortsSound.withRoom h limit agree fun _ => originating
  · exact raised

theorem State.roomFallsSilent_steady (s : State) : Steady s s.roomFallsSilent := by
  have silent := s.setPorts_steady { s.ports with roomSilence := 48, origination := true, skip := false } fun h =>
    PortsSound.withRoom h (le_refl 48) (by decide) fun _ => rfl
  unfold State.roomFallsSilent
  dsimp only
  split
  · exact silent.trans (State.raise_steady _ _ _ _)
  · exact silent

theorem State.originate_lawful (s : State) (between : List (Nat × Interlude)) : Lawful s (s.originate between) := by
  unfold State.originate
  split
  · refine (s.setPorts_steady _ fun h => ?_).lawful
    obtain ⟨-, -, limit, agree, -⟩ := id h
    exact PortsSound.withRoom h limit agree nofun
  · exact s.sendFiller_lawful between _

theorem State.roomAdvance_lawful (s : State) (between : List (Nat × Interlude)) : Lawful s (s.roomAdvance between) := by
  have originated : ∀ t : State, Lawful t (if t.ports.origination then t.originate between else t) := fun t => by
    split
    · exact t.originate_lawful between
    · exact .refl t
  unfold State.roomAdvance
  refine .trans ?_ (originated _)
  split
  · exact s.roomFallsSilent_steady.lawful
  next early =>
  split
  · next below =>
    refine (s.setPorts_steady _ fun h => ?_).lawful
    obtain ⟨-, -, limit, agree, marked, -⟩ := id h
    simp only [Config.silenceLimit] at early below
    exact PortsSound.withRoom h (by omega) (by rw [agree]; omega) marked
  · exact .refl s

theorem State.takeRoomMark_lawful (s : State) (between : List (Nat × Interlude)) : Lawful s (s.takeRoomMark between) := by
  unfold State.takeRoomMark
  split
  · exact (s.setPorts_steady_beside _).lawful.trans (State.roomAdvance_lawful _ between)
  split
  · exact (s.setPorts_steady_beside _).lawful.trans (State.roomAdvance_lawful _ between)
  · exact .refl s

/-! ### Rows and steps -/

theorem exec_lawful (i : Instr) (s t : State) (e : exec i s = .next t) : Lawful s t := by
  by_cases command : (commandOf i).isSome = true
  · rw [exec_command i s command] at e
    obtain rfl := Host.Outcome.next.inj e
    exact (s.takeRow_lawful i).whilePortsRun
  cases i with
  | powerOn | resetPin =>
    obtain rfl := Host.Outcome.next.inj e
    exact Steady.lawful (Steady.of_reset rfl rfl rfl rfl rfl rfl rfl rfl rfl rfl portsSound_reset)
  | resetPinAssert =>
    obtain rfl := Host.Outcome.next.inj e
    exact (s.setPorts_steady_beside _).lawful
  | outboundGoodArrival seq flags slots window stepFirst =>
    obtain rfl := Host.Outcome.next.inj e
    exact (s.outboundGood_lawful seq flags slots window stepFirst).whilePortsRun
  | outboundBadArrival slots =>
    obtain rfl := Host.Outcome.next.inj e
    exact (s.outboundBad_steady slots).lawful.whilePortsRun
  | blockIntervalTimerExpiry =>
    obtain rfl := Host.Outcome.next.inj e
    exact s.timerExpires_steady.lawful
  | lockAcquired =>
    obtain rfl := Host.Outcome.next.inj e
    refine Lawful.whilePortsRun ?_
    split
    · exact (s.lockSees_steady _).lawful
    · exact .refl s
  | lockLoss =>
    obtain rfl := Host.Outcome.next.inj e
    split
    · exact (s.lockSees_steady _).lawful
    · exact .refl s
  | coreSilence =>
    obtain rfl := Host.Outcome.next.inj e
    split
    · exact s.coreSilenceRises_steady.lawful
    · exact .refl s
  | roomSilenceAdvance between =>
    obtain rfl := Host.Outcome.next.inj e
    exact s.takeRoomMark_lawful between
  | roomSilence between =>
    obtain rfl := Host.Outcome.next.inj e
    split
    · exact s.takeRoomMark_lawful between
    · exact .refl s
  | inboundGoodArrival seq flags slots window between =>
    obtain rfl := Host.Outcome.next.inj e
    exact (s.inboundGood_lawful seq flags slots window between).whilePortsRun
  | inboundBadArrival slots between =>
    obtain rfl := Host.Outcome.next.inj e
    exact (s.inboundBad_lawful slots between).whilePortsRun
  | inboundBlockTransmit =>
    obtain rfl := Host.Outcome.next.inj e
    exact s.transmit_steady.lawful.whilePortsRun
  | seedStep =>
    obtain rfl := Host.Outcome.next.inj e
    exact s.takeSeedStep_steady.lawful
  | windowEnd c capture live background =>
    obtain rfl := Host.Outcome.next.inj e
    split
    · exact (s.accumulateWindow_steady c _).lawful
    · exact .refl s
  | captureClip c =>
    obtain rfl := Host.Outcome.next.inj e
    dsimp only
    split
    · exact (s.clipTest_steady c true).lawful
    · exact .refl s
  | activityHangoverExpiry r =>
    obtain rfl := Host.Outcome.next.inj e
    dsimp only
    split
    · exact (s.putReference_steady r _).lawful
    · exact .refl s
  | nearHangoverExpiry c =>
    obtain rfl := Host.Outcome.next.inj e
    dsimp only
    split
    · exact (s.putChannel_steady c _).lawful
    · exact .refl s
  | _ => exact absurd rfl command

theorem step_lawful (s t : State) (e : step s = .next t) : Lawful s t := by
  unfold Machine.step at e
  split at e
  · obtain rfl := Host.Outcome.next.inj e
    exact .refl s
  · exact (s.setPending_steady _).lawful.trans (exec_lawful _ _ _ e)

/-- Settles O55: every row keeps the sizes and the bounds, by what each of its operations keeps. -/
theorem tablesAndQueuesKept : Obligations.TablesAndQueuesKept := fun s t e => ⟨(step_lawful s t e).tables, (step_lawful s t e).queues⟩

/-- Settles O58: every row keeps the laws of the ports, by what each of its operations keeps. -/
theorem portLawsKept : Obligations.PortLawsKept := fun s t e => (step_lawful s t e).ports

end Sys2Proof.Machine
end

section
/-! The reset pin (O3), the lock's table with its two rows and CORE_SILENCE (O14, O15, O16), and the room-silence rows (O18). -/

namespace Sys2Proof.Machine

open Sys2Proof.Safety

/-! ### The reset pin (R126) -/

/-- While the reset pin is held, no row over the ports has an effect. -/
theorem exec_overThePorts_held {i : Instr} {s : State} (held : s.ports.pinHeld = true) (reaches : OverThePorts i) : exec i s = .next s := by
  have nothing : ∀ f : State → State, Host.Outcome.next (φ := Fault) (ρ := Refusal) (s.whilePortsRun f) = .next s := fun f =>
    congrArg Host.Outcome.next (s.whilePortsRun_held f held)
  rcases reaches with command | rfl | rfl | ⟨_, _, _, _, _, rfl⟩ | ⟨_, rfl⟩ | ⟨_, _, _, _, _, rfl⟩ | ⟨_, _, rfl⟩
  case inl => exact (exec_command i s command).trans (nothing _)
  all_goals exact nothing _

/-- Settles O3: both rows field by field, and the rows that the held pin shuts out. -/
theorem resetPinEffect : Obligations.ResetPinEffect :=
  ⟨⟨fun _ => rfl, fun _ => rfl⟩, fun _ _ held reaches => exec_overThePorts_held held reaches⟩

/-! ### The lock's transitions (R139, R140) -/

section
variable {s : State} {x : LockSight}

theorem State.lockSees_unlocked_good (lock : s.ports.lock = .unlocked) (good : x ≠ .lost) :
    s.lockSees x = s.setPorts { s.ports with lock := .acquiring, acquire := 1 } := by
  unfold State.lockSees
  cases x with
  | inSequence | gap => rw [lock]
  | lost => exact absurd rfl good

theorem State.lockSees_unlocked_lost (lock : s.ports.lock = .unlocked) : s.lockSees .lost = s := by
  unfold State.lockSees
  rw [lock]

theorem State.lockSees_acquiring_inSequence (lock : s.ports.lock = .acquiring) : s.lockSees .inSequence = s.acquisitionRises := by
  unfold State.lockSees
  rw [lock]

theorem State.lockSees_acquiring_bad (lock : s.ports.lock = .acquiring) (bad : x ≠ .inSequence) :
    s.lockSees x = s.setPorts { s.ports with lock := .unlocked, acquire := 0 } := by
  unfold State.lockSees
  cases x with
  | inSequence => exact absurd rfl bad
  | gap | lost => rw [lock]

theorem State.lockSees_locked_inSequence (lock : s.ports.lock = .locked) :
    s.lockSees .inSequence = s.setPorts { s.ports with loss := 0 } := by
  unfold State.lockSees
  rw [lock]

theorem State.lockSees_locked_bad (lock : s.ports.lock = .locked) (bad : x ≠ .inSequence) : s.lockSees x = s.lossRises := by
  unfold State.lockSees
  cases x with
  | inSequence => exact absurd rfl bad
  | gap | lost => rw [lock]

theorem State.acquisitionRises_early (early : s.ports.acquire + 1 < 16) :
    s.acquisitionRises = s.setPorts { s.ports with acquire := s.ports.acquire + 1 } := if_neg (Nat.not_le.mpr early)

theorem State.acquisitionRises_last (last : 16 ≤ s.ports.acquire + 1) : s.acquisitionRises = s.lockReached := if_pos last

theorem State.lossRises_early (early : s.ports.loss + 1 < 3) : s.lossRises = s.setPorts { s.ports with loss := s.ports.loss + 1 } :=
  if_neg (Nat.not_le.mpr early)

theorem State.lossRises_last (last : 3 ≤ s.ports.loss + 1) : s.lossRises = s.lockLost := if_pos last

end

theorem State.lockReached_ports (s : State) :
    s.lockReached.ports = { s.ports with lock := .locked, acquire := 16, loss := 0, armed := true } := by
  unfold State.lockReached
  dsimp only
  split
  · exact (State.leaveOffline_reports _).ports
  · rfl

theorem State.lockLost_ports (s : State) : s.lockLost.ports = { s.ports with lock := .unlocked, acquire := 0, loss := 0 } := by
  unfold State.lockLost
  dsimp only
  split
  · exact State.raise_ports _ _ _ _
  · rfl

/-- An armed part that loses the lock has CLOCK_UNLOCK set (R140, R142). -/
theorem State.lockLost_isSet (s : State) (armed : s.ports.armed = true) : s.lockLost.unit.isSet .clockUnlock = true := by
  unfold State.lockLost
  dsimp only
  rw [if_pos armed]
  exact State.raise_isSet _ _ _ _

theorem LockSight.ne_inSequence {x : LockSight} (h : x = .gap ∨ x = .lost) : x ≠ .inSequence := by
  rcases h with rfl | rfl <;> decide

/-- Settles O14: the table row by row, with the lock reached and the lock lost by what they leave of the ports. -/
theorem lockTable : Obligations.LockTable := by
  intro s
  refine ⟨fun lock => ⟨?_, ?_, s.lockSees_unlocked_lost lock⟩, fun lock => ⟨fun early => ?_, fun last => ?_, fun x bad => ?_⟩,
    fun lock => ⟨?_, fun x bad => ⟨fun early => ?_, fun last => ?_⟩⟩⟩
  · rw [State.lockSees_unlocked_good lock (by decide)]
    exact ⟨rfl, rfl⟩
  · rw [State.lockSees_unlocked_good lock (by decide)]
    exact ⟨rfl, rfl⟩
  · rw [State.lockSees_acquiring_inSequence lock, State.acquisitionRises_early early]
    rfl
  · rw [State.lockSees_acquiring_inSequence lock, State.acquisitionRises_last last.ge, State.lockReached_ports]
    exact ⟨rfl, rfl, rfl, rfl⟩
  · exact State.lockSees_acquiring_bad lock (LockSight.ne_inSequence bad)
  · exact State.lockSees_locked_inSequence lock
  · rw [State.lockSees_locked_bad lock (LockSight.ne_inSequence bad), State.lossRises_early early]
    rfl
  · rw [State.lockSees_locked_bad lock (LockSight.ne_inSequence bad), State.lossRises_last last, State.lockLost_ports]
    exact ⟨rfl, rfl, rfl, s.lockLost_isSet⟩

/-! ### LOCK_ACQUIRED (R139, R142, R162) -/

theorem exec_lockAcquired (s : State) (running : s.ports.pinHeld = false) (lock : s.ports.lock = .acquiring) (count : s.ports.acquire = 15) :
    exec .lockAcquired s = .next s.lockReached := by
  have row : exec .lockAcquired s =
      .next (s.whilePortsRun fun s => if s.ports.lock = .acquiring ∧ s.ports.acquire = 15 then s.lockSees .inSequence else s) := rfl
  rw [row, s.whilePortsRun_run _ running, if_pos ⟨lock, count⟩, State.lockSees_acquiring_inSequence lock,
    State.acquisitionRises_last (by omega)]

/-- The state in which a part leaves OFFLINE (R162). -/
def FaultUnit.firstState (u : FaultUnit) : OpState := if u.graveSet then .safe else .run

theorem FaultUnit.firstState_safe {u : FaultUnit} (grave : GraveStands u) : u.firstState = .safe := if_pos (u.graveSet_iff.mpr grave)

theorem FaultUnit.firstState_run {u : FaultUnit} (calm : ¬GraveStands u) : u.firstState = .run :=
  if_neg fun grave => calm (u.graveSet_iff.mp grave)

theorem FaultUnit.firstState_dithers (u : FaultUnit) : u.firstState.dithers = true := by
  unfold FaultUnit.firstState
  split <;> rfl

/-- A part that has left OFFLINE, before its STATE notice: the modulators resume with their memory cleared (R46, R162). -/
def State.leftOffline (s : State) : State :=
  { s with
    ports := { s.ports with lock := .locked, acquire := 16, loss := 0, armed := true }
    unit := { s.unit with opState := s.unit.firstState }
    modulators := s.modulators.map fun m => { m with lastIn := 0, lastOut := 0 } }

theorem State.lockReached_awake (s : State) (awake : s.unit.opState ≠ .offline) :
    s.lockReached = { s with ports := { s.ports with lock := .locked, acquire := 16, loss := 0, armed := true } } := if_neg awake

theorem State.lockReached_offline (s : State) (offline : s.unit.opState = .offline) :
    s.lockReached =
      if s.control.enableState then s.leftOffline.postNotice (.state s.unit.firstState .locked s.unit.cause) none else s.leftOffline := by
  have changed : (s.setPorts { s.ports with lock := .locked, acquire := 16, loss := 0, armed := true }).changeOpState s.unit.firstState =
      s.leftOffline := by
    unfold State.changeOpState
    dsimp only
    rw [State.setPorts_unit, s.unit.firstState_dithers, offline, if_pos (by decide)]
    rfl
  unfold State.lockReached
  dsimp only
  rw [if_pos offline]
  show State.enterState _ s.unit.firstState .locked none = _
  unfold State.enterState
  rw [changed]
  rfl

/-- Settles O15: the lock reached in a part that has left OFFLINE and in one that leaves it now. -/
theorem lockAcquiredEffect : Obligations.LockAcquiredEffect := by
  intro s running lock count
  rw [exec_lockAcquired s running lock count]
  refine ⟨fun awake => congrArg Host.Outcome.next (s.lockReached_awake awake), fun offline => ?_, fun offline room => ?_⟩
  · exact ⟨s.unit.firstState, FaultUnit.firstState_safe, FaultUnit.firstState_run, congrArg Host.Outcome.next (s.lockReached_offline offline)⟩
  · refine ⟨_, s.unit.firstState, rfl, FaultUnit.firstState_safe, FaultUnit.firstState_run, ?_⟩
    have posted : ∀ n, s.leftOffline.postNotice n none =
        { s.leftOffline with control := { s.control with notices := s.control.notices ++ [n] } } := fun n => if_pos room
    rw [s.lockReached_offline offline]
    cases enabled : s.control.enableState with
    | true =>
      rw [if_pos rfl, posted]
      exact ⟨rfl, rfl, by rw [if_pos rfl], rfl, rfl, rfl, rfl, rfl, rfl, rfl, rfl⟩
    | false =>
      refine ⟨rfl, rfl, ?_, rfl, rfl, rfl, rfl, rfl, rfl, rfl, rfl⟩
      show s.control = _
      rw [if_neg (by decide), List.append_nil]

/-! ### LOCK_LOSS and CORE_SILENCE (R140 to R142) -/

theorem exec_lockLoss (s : State) (lock : s.ports.lock = .locked) (count : s.ports.loss = 2) : exec .lockLoss s = .next s.lockLost := by
  have row : exec .lockLoss s = .next (if s.ports.lock = .locked ∧ s.ports.loss = 2 then s.lockSees .lost else s) := rfl
  rw [row, if_pos ⟨lock, count⟩, State.lockSees_locked_bad lock (by decide), State.lossRises_last (by omega)]

theorem exec_coreSilence (s : State) (timer : s.ports.timerRunning = true) (count : s.ports.coreSilence = 47) :
    exec .coreSilence s = .next s.coreSilenceRises := congrArg Host.Outcome.next (if_pos ⟨timer, count⟩)

/-- Settles O16: the loss of the lock, and the count's rise from 47 to 48. -/
theorem lockLossAndCoreSilence : Obligations.LockLossAndCoreSilence := by
  refine ⟨fun s lock count => exec_lockLoss s lock count, fun s timer count => ?_⟩
  have last : silenceAfter s.ports.coreSilence = 48 := by rw [count]; rfl
  rw [exec_coreSilence s timer count, s.coreSilenceRises_eq, last]
  simp only [count, true_and]
  rfl

/-! ### The room-silence count (R134, R137, R138) -/

/-- The state in which an advance is taken: its mark used up, or taken ahead (log 4). -/
def State.advanceOpened (s : State) : State :=
  { s with
    ports := if 0 < s.ports.roomMarks then { s.ports with roomMarks := s.ports.roomMarks - 1 } else { s.ports with roomEarly := true } }

theorem State.takeRoomMark_due (s : State) (between : List (Nat × Interlude))
    (due : 0 < s.ports.roomMarks ∨ s.ports.timerRunning = true ∧ s.ports.roomEarly = false) :
    s.takeRoomMark between = s.advanceOpened.roomAdvance between := by
  unfold State.takeRoomMark State.advanceOpened
  by_cases marked : 0 < s.ports.roomMarks
  · rw [if_pos marked, if_pos marked]
    rfl
  · rw [if_neg marked, if_neg marked, if_pos (due.resolve_left marked)]
    rfl

theorem State.takeRoomMark_none (s : State) (between : List (Nat × Interlude)) (unmarked : s.ports.roomMarks = 0)
    (early : s.ports.timerRunning = false ∨ s.ports.roomEarly = true) : s.takeRoomMark between = s := by
  unfold State.takeRoomMark
  rw [if_neg (by omega), if_neg]
  rintro ⟨timer, late⟩
  rcases early with stopped | ahead
  · rw [stopped] at timer
    cases timer
  · rw [ahead] at late
    cases late

/-- An advance leaves count, origination flag and skip mark for the advance itself. -/
theorem State.advanceOpened_room (s : State) :
    s.advanceOpened.ports.roomSilence = s.ports.roomSilence ∧ s.advanceOpened.ports.origination = s.ports.origination ∧
      s.advanceOpened.ports.skip = s.ports.skip ∧ s.advanceOpened.ports.armed = s.ports.armed := by
  unfold State.advanceOpened
  dsimp only
  split <;> exact ⟨rfl, rfl, rfl, rfl⟩

section
variable {s : State} (between : List (Nat × Interlude))

theorem State.roomAdvance_below (below : s.ports.roomSilence < 47) (calm : s.ports.origination = false) :
    s.roomAdvance between = s.setPorts { s.ports with roomSilence := s.ports.roomSilence + 1 } := by
  unfold State.roomAdvance Config.silenceLimit
  dsimp only
  rw [if_neg (by omega : ¬s.ports.roomSilence + 1 = 48), if_pos (by omega : s.ports.roomSilence < 48)]
  exact if_neg (Bool.eq_false_iff.mp calm)

theorem State.roomAdvance_silent (silent : s.ports.roomSilence = 48) (originating : s.ports.origination = true) :
    s.roomAdvance between = s.originate between := by
  unfold State.roomAdvance Config.silenceLimit
  dsimp only
  rw [if_neg (by omega : ¬s.ports.roomSilence + 1 = 48), if_neg (by omega : ¬s.ports.roomSilence < 48), if_pos originating]

theorem State.originate_skipped (skip : s.ports.skip = true) : s.originate between = s.setPorts { s.ports with skip := false } := if_pos skip

theorem State.originate_sends (go : s.ports.skip = false) : s.originate between = s.sendFiller between silentSlots :=
  if_neg (Bool.eq_false_iff.mp go)

theorem State.roomFallsSilent_ports (s : State) :
    s.roomFallsSilent.ports = { s.ports with roomSilence := 48, origination := true, skip := false } := by
  unfold State.roomFallsSilent
  dsimp only
  split
  · exact State.raise_ports _ _ _ _
  · rfl

theorem State.roomAdvance_falls (last : s.ports.roomSilence = 47) :
    s.roomAdvance between = s.roomFallsSilent.sendFiller between silentSlots := by
  have ports := s.roomFallsSilent_ports
  unfold State.roomAdvance Config.silenceLimit
  dsimp only
  rw [if_pos (by omega : s.ports.roomSilence + 1 = 48), if_pos (by rw [ports]), State.originate_sends between (by rw [ports])]

theorem exec_roomSilence (last : s.ports.roomSilence = 47) : exec (.roomSilence between) s = .next (s.takeRoomMark between) :=
  congrArg Host.Outcome.next (if_pos last)

theorem exec_roomSilenceAdvance : exec (.roomSilenceAdvance between) s = .next (s.takeRoomMark between) := rfl

/-- ROOM_SILENCE without an advance that is due (log 3, log 4). -/
theorem exec_roomSilence_none (nothing : s.takeRoomMark between = s) : exec (.roomSilence between) s = .next s := by
  have row : exec (.roomSilence between) s = .next (if s.ports.roomSilence = 47 then s.takeRoomMark between else s) := rfl
  rw [row, nothing, ite_self]

end

/-- The room falls silent with nothing between its channel blocks: the ports, the slots that no channel names, and the fault (R134, R137). -/
theorem State.roomFallsSilent_sendFiller (s : State) :
    ∃ slots, (s.roomFallsSilent.sendFiller [] silentSlots).ports =
        { s.ports with
          roomSilence := 48
          origination := true
          skip := false
          inTxSeq := s.ports.inTxSeq + 1
          coreLine := s.ports.coreLine ++ [{ seq := s.ports.inTxSeq + 1, filler := true, slots := slots }] } ∧
      SameElsewhere (fun k => ∃ c < 24, (s.channel c).slot = some k) (List.replicate 32 silence) slots ∧
      (s.ports.armed = true → (s.roomFallsSilent.sendFiller [] silentSlots).unit.isSet .roomSilence = true) := by
  obtain ⟨work, elsewhere⟩ := s.roomFallsSilent.processSlots_spec silentSlots
  have channel : ∀ c, s.roomFallsSilent.channel c = s.channel c := fun c => by
    unfold State.roomFallsSilent
    dsimp only
    split
    · exact (State.raise_reports _ _ _ _).channel c
    · rfl
  rw [State.sendFiller_eq]
  generalize s.roomFallsSilent.processSlots [] silentSlots = done at work elsewhere ⊢
  refine ⟨done.1, ?_, SameElsewhere.mono elsewhere fun k ⟨c, hc, slot⟩ => ⟨c, hc, channel c ▸ slot⟩, fun armed => work.statuses _ ?_⟩
  · dsimp only
    rw [work.ports, s.roomFallsSilent_ports]
  · unfold State.roomFallsSilent
    dsimp only
    rw [if_pos armed]
    exact State.raise_isSet _ _ _ _

/-- Settles O18: the advance by its count, and what it originates by the skip mark. -/
theorem roomSilenceRows : Obligations.RoomSilenceRows := by
  refine ⟨fun s between due => ?_, fun s between unmarked early => ?_, fun s marked last => ?_⟩
  · intro opened originated silent
    have taken : s.takeRoomMark between = opened.roomAdvance between := s.takeRoomMark_due between due
    obtain ⟨count, flag, mark, arming⟩ : opened.ports.roomSilence = s.ports.roomSilence ∧ opened.ports.origination = s.ports.origination ∧
        opened.ports.skip = s.ports.skip ∧ opened.ports.armed = s.ports.armed := s.advanceOpened_room
    refine ⟨fun below calm => ?_, fun fallen originating skip => ?_, fun fallen originating go => ?_, fun last => ⟨?_, ?_⟩⟩
    · rw [exec_roomSilenceAdvance, taken, State.roomAdvance_below between (count ▸ below) (flag.trans calm), count]
      rfl
    · rw [exec_roomSilenceAdvance, taken, State.roomAdvance_silent between (count.trans fallen) (flag.trans originating),
        State.originate_skipped between (mark.trans skip)]
      rfl
    · rw [exec_roomSilenceAdvance, taken, State.roomAdvance_silent between (count.trans fallen) (flag.trans originating),
        State.originate_sends between (mark.trans go)]
      rfl
    · have falls : opened.roomFallsSilent = if s.ports.armed = true then silent.raise .roomSilence (.port .room) none else silent := by
        rw [← arming]
        rfl
      rw [exec_roomSilence between last, taken, State.roomAdvance_falls between (count.trans last), falls]
      rfl
    · rw [exec_roomSilence between last, exec_roomSilenceAdvance]
  · have nothing := s.takeRoomMark_none between unmarked early
    exact ⟨(exec_roomSilenceAdvance between).trans (congrArg Host.Outcome.next nothing), exec_roomSilence_none between nothing⟩
  · have opened : s.advanceOpened.ports = { s.ports with roomMarks := s.ports.roomMarks - 1 } := if_pos marked
    have count : s.advanceOpened.ports.roomSilence = 47 := by rw [opened]; exact last
    obtain ⟨slots, ports, elsewhere, set⟩ := s.advanceOpened.roomFallsSilent_sendFiller
    rw [opened] at ports set
    refine ⟨_, slots, exec_roomSilence [] last, ?_⟩
    rw [s.takeRoomMark_due [] (.inl marked), State.roomAdvance_falls [] count]
    exact ⟨ports, elsewhere, set⟩

end Sys2Proof.Machine
end

section
/-! The wire: bits to bytes, bytes to slots, and what the receivers make of a link block (R125, R172, R173). -/

namespace Sys2Proof.Machine

open Sys2Proof.Safety

/-! ### Bits on the line (R172) -/

/-- One more bit received: it becomes the lowest, and the others move up. -/
theorem getLsbD_shift_bit (b : Byte) (bit : Bool) (i : Nat) (h : i < 8) :
    (b <<< 1 ||| (if bit then 1 else 0) : Byte).getLsbD i = if i = 0 then bit else b.getLsbD (i - 1) := by
  have low : (if bit then 1 else 0 : Byte).getLsbD i = (decide (i = 0) && bit) := by
    cases bit with
    | true => simp [h]
    | false => simp
  rw [BitVec.getLsbD_or, low, BitVec.getLsbD_shiftLeft]
  by_cases first : i = 0
  · simp [first]
  · have later : ¬i < 1 := by omega
    simp [first, later, h]

/-- A byte is read back from its eight bits. -/
theorem byteOfBits_byteBits (b : Byte) : byteOfBits (byteBits b) = b := by
  refine BitVec.eq_of_getLsbD_eq fun i hi => ?_
  simp only [byteOfBits, byteBits, List.map_cons, List.map_nil, List.foldl_cons, List.foldl_nil]
  interval_cases i <;> simp only [getLsbD_shift_bit, Nat.reduceLT, Nat.reduceSub, Nat.reduceEqDiff, reduceIte]

theorem byteBits_length (b : Byte) : (byteBits b).length = 8 := rfl

theorem lineBits_length (bytes : List Byte) : (lineBits bytes).length = 8 * bytes.length := by
  induction bytes with
  | nil => rfl
  | cons b rest ih =>
    rw [lineBits, List.flatMap_cons, List.length_append, byteBits_length, ← lineBits, ih, List.length_cons]
    omega

/-- Bytes sent bit by bit are read back, and what follows them on the line is read after them. -/
theorem lineBytes_lineBits_append (bytes : List Byte) (idle : List Bool) : lineBytes (lineBits bytes ++ idle) = bytes ++ lineBytes idle := by
  induction bytes with
  | nil => rfl
  | cons b rest ih =>
    have first : lineBytes (lineBits (b :: rest) ++ idle) = byteOfBits (byteBits b) :: lineBytes (lineBits rest ++ idle) := rfl
    rw [first, byteOfBits_byteBits, ih, List.cons_append]

theorem lineBytes_lineBits (bytes : List Byte) : lineBytes (lineBits bytes) = bytes := by
  have read := lineBytes_lineBits_append bytes []
  rwa [List.append_nil, show lineBytes [] = [] from rfl, List.append_nil] at read

/-! ### Samples and slots from their bytes (R172) -/

theorem samplesOf_length (l : List Byte) : (samplesOf l).length = l.length / 3 := by
  induction l using samplesOf.induct with
  | case1 a b c rest ih =>
    simp only [samplesOf, List.length_cons, ih]
    omega
  | case2 l short =>
    match l, short with
    | [], _ | [_], _ | [_, _], _ => simp [samplesOf]
    | a :: b :: c :: rest, short => exact absurd rfl (short a b c rest)

theorem samplesOf_getD (l : List Byte) (j : Nat) (h : 3 * j + 2 < l.length) :
    (samplesOf l).getD j 0 = l.getD (3 * j) 0 ++ l.getD (3 * j + 1) 0 ++ l.getD (3 * j + 2) 0 := by
  induction l using samplesOf.induct generalizing j with
  | case1 a b c rest ih =>
    cases j with
    | zero => rfl
    | succ j =>
      have inside : 3 * j + 2 < rest.length := by
        simp only [List.length_cons] at h
        omega
      exact ih j inside
  | case2 l short =>
    match l, short with
    | [], _ | [_], _ | [_, _], _ => simp at h
    | a :: b :: c :: rest, short => exact absurd rfl (short a b c rest)

theorem slotsOf_length (n : Nat) (bytes : List Byte) : (slotsOf n bytes).length = n := by
  induction n generalizing bytes with
  | zero => rfl
  | succ n ih => rw [slotsOf, List.length_cons, ih]

theorem slotsOf_getD (n : Nat) (bytes : List Byte) (k : Nat) (h : k < n) :
    (slotsOf n bytes).getD k [] = samplesOf ((bytes.drop (192 * k)).take 192) := by
  induction n generalizing bytes k with
  | zero => exact absurd h (Nat.not_lt_zero k)
  | succ n ih =>
    cases k with
    | zero => rfl
    | succ k =>
      have rest : (slotsOf (n + 1) bytes).getD (k + 1) [] = (slotsOf n (bytes.drop 192)).getD k [] := rfl
      rw [rest, ih _ k (by omega), List.drop_drop]
      congr 3
      omega

/-- Slots are read from their own bytes, whatever follows them. -/
theorem slotsOf_append (n : Nat) (bytes rest : List Byte) (h : 192 * n ≤ bytes.length) : slotsOf n (bytes ++ rest) = slotsOf n bytes := by
  induction n generalizing bytes with
  | zero => rfl
  | succ n ih =>
    rw [slotsOf, slotsOf, List.take_append_of_le_length (by omega), List.drop_append_of_le_length (by omega),
      ih _ (by rw [List.length_drop]; omega)]

/-- Slots of 64 samples are read back from their bytes. -/
theorem slotsOf_flatMap_slotBytes (slots : List Slot) (whole : ∀ x ∈ slots, x.length = 64) :
    slotsOf slots.length (slots.flatMap slotBytes) = slots := by
  induction slots with
  | nil => rfl
  | cons x rest ih =>
    have length : (slotBytes x).length = 192 := by rw [slotBytes_length, whole x List.mem_cons_self]
    rw [List.flatMap_cons, List.length_cons, slotsOf, ← length, List.take_left, List.drop_left, samplesOf_slotBytes,
      ih fun y hy => whole y (List.mem_cons_of_mem x hy)]

theorem flatMap_slotBytes_length (slots : List Slot) (whole : ∀ x ∈ slots, x.length = 64) :
    (slots.flatMap slotBytes).length = 192 * slots.length := by
  induction slots with
  | nil => rfl
  | cons x rest ih =>
    rw [List.flatMap_cons, List.length_append, slotBytes_length, whole x List.mem_cons_self,
      ih fun y hy => whole y (List.mem_cons_of_mem x hy), List.length_cons]
    omega

/-! ### The judgement of a header (R125, R173) -/

theorem syncFound_iff (bytes : List Byte) : syncFound bytes = true ↔ bytes.take 3 = [0xA5, 0x3C, 0x96] := beq_iff_eq

theorem headerGood_iff (bytes : List Byte) : headerGood bytes = true ↔ (bytes.drop 5).take 2 = halfBytes (crc (bytes.take 5)) := by
  have seven : bytes.take 7 = bytes.take 5 ++ (bytes.drop 5).take 2 := List.take_add (i := 5) (j := 2)
  rw [headerGood, beq_iff_eq, seven, withCrc, List.append_right_inj]

section
variable {bytes : List Byte}

theorem receive_unfound (unfound : ¬syncFound bytes = true) : receiveOutbound bytes = none ∧ receiveInbound bytes = none :=
  ⟨if_neg unfound, if_neg unfound⟩

theorem receive_bad (found : syncFound bytes = true) (bad : ¬headerGood bytes = true) :
    receiveOutbound bytes = some (.outboundBadArrival (slotsOf 16 (bytes.drop 7))) ∧
      receiveInbound bytes = some (.inboundBadArrival (slotsOf 32 (bytes.drop 7)) []) :=
  ⟨(if_pos found).trans (if_neg bad), (if_pos found).trans (if_neg bad)⟩

theorem receiveOutbound_good (found : syncFound bytes = true) (good : headerGood bytes = true) :
    receiveOutbound bytes =
      some (.outboundGoodArrival (bytes.getD 3 0) (bytes.getD 4 0) (slotsOf 16 (bytes.drop 7)) ((bytes.drop 3079).take 212) false) :=
  (if_pos found).trans (if_pos good)

theorem receiveInbound_good (found : syncFound bytes = true) (good : headerGood bytes = true) :
    receiveInbound bytes =
      some (.inboundGoodArrival (bytes.getD 3 0) (bytes.getD 4 0) (slotsOf 32 (bytes.drop 7)) ((bytes.drop 6151).take 212) []) :=
  (if_pos found).trans (if_pos good)

end

/-! ### What follows a block on the line -/

section
variable {bytes : List Byte} (rest : List Byte)

theorem syncFound_append (h : 3 ≤ bytes.length) : syncFound (bytes ++ rest) = syncFound bytes := by
  rw [syncFound, syncFound, List.take_append_of_le_length h]

theorem headerGood_append (h : 7 ≤ bytes.length) : headerGood (bytes ++ rest) = headerGood bytes := by
  rw [headerGood, headerGood, List.take_append_of_le_length h, List.take_append_of_le_length (by omega)]

theorem slotsOf_drop_append (n : Nat) (h : 7 + 192 * n ≤ bytes.length) :
    slotsOf n ((bytes ++ rest).drop 7) = slotsOf n (bytes.drop 7) := by
  rw [List.drop_append_of_le_length (by omega), slotsOf_append _ _ _ (by rw [List.length_drop]; omega)]

theorem window_append (n : Nat) (h : n + 212 ≤ bytes.length) : ((bytes ++ rest).drop n).take 212 = (bytes.drop n).take 212 := by
  rw [List.drop_append_of_le_length (by omega), List.take_append_of_le_length (by rw [List.length_drop]; omega)]

theorem receiveOutbound_append (h : bytes.length = 3291) : receiveOutbound (bytes ++ rest) = receiveOutbound bytes := by
  unfold receiveOutbound payloadByte Config.outSlots
  rw [syncFound_append rest (by omega), headerGood_append rest (by omega), slotsOf_drop_append rest 16 (by omega),
    window_append rest 3079 (by omega), List.getD_append _ _ _ _ (by omega), List.getD_append _ _ _ _ (by omega)]

theorem receiveInbound_append (h : bytes.length = 6363) : receiveInbound (bytes ++ rest) = receiveInbound bytes := by
  unfold receiveInbound payloadByte Config.inSlots
  rw [syncFound_append rest (by omega), headerGood_append rest (by omega), slotsOf_drop_append rest 32 (by omega),
    window_append rest 6151 (by omega), List.getD_append _ _ _ _ (by omega), List.getD_append _ _ _ _ (by omega)]

end

theorem receiveOutboundLine_lineBits {bytes : List Byte} (idle : List Bool) (h : bytes.length = 3291) :
    receiveOutboundLine (lineBits bytes ++ idle) = receiveOutbound bytes := by
  rw [receiveOutboundLine, lineBytes_lineBits_append, receiveOutbound_append _ h]

theorem receiveInboundLine_lineBits {bytes : List Byte} (idle : List Bool) (h : bytes.length = 6363) :
    receiveInboundLine (lineBits bytes ++ idle) = receiveInbound bytes := by
  rw [receiveInboundLine, lineBytes_lineBits_append, receiveInbound_append _ h]

/-! ### A link block as it is sent (R125, R173) -/

/-- The seven bytes of a header as it is sent. -/
def LinkBlock.header (b : LinkBlock) : List Byte := withCrc (syncBytes ++ [b.seq, sentFlags b.filler b.packet.isSome])

theorem LinkBlock.bytes_eq (b : LinkBlock) : b.bytes = b.header ++ (b.slots.flatMap slotBytes ++ windowOf b.packet) := List.append_assoc _ _ _

theorem LinkBlock.header_length (b : LinkBlock) : b.header.length = 7 := rfl

theorem windowOf_length {packet : Option (List Byte)} (room : ∀ p, packet = some p → p.length ≤ 210) : (windowOf packet).length = 212 := by
  cases packet with
  | none => exact List.length_replicate
  | some p =>
    have fits := room p rfl
    simp only [windowOf, bytes2, List.length_append, halfBytes_length, List.length_replicate]
    omega

theorem sentFlags_eq (filler present : Bool) : sentFlags filler present = (if filler then 0x80 else 0) ||| (if present then 0x40 else 0) := by
  cases filler <;> cases present <;> rfl

section
variable {b : LinkBlock}

theorem LinkBlock.syncFound_bytes : syncFound b.bytes = true := by
  rw [b.bytes_eq, syncFound_append _ (by rw [b.header_length]; decide)]
  rfl

theorem LinkBlock.headerGood_bytes : headerGood b.bytes = true := by
  rw [b.bytes_eq, headerGood_append _ b.header_length.ge]
  exact beq_iff_eq.mpr rfl

theorem LinkBlock.bytes_getD {k : Nat} (h : k < 7) : b.bytes.getD k 0 = b.header.getD k 0 := by
  rw [b.bytes_eq, List.getD_append _ _ _ _ (by rw [b.header_length]; exact h)]

theorem LinkBlock.bytes_drop_header : b.bytes.drop 7 = b.slots.flatMap slotBytes ++ windowOf b.packet := by
  rw [b.bytes_eq, ← b.header_length, List.drop_left]

variable (whole : ∀ x ∈ b.slots, x.length = 64)
include whole

theorem LinkBlock.slotsOf_bytes : slotsOf b.slots.length (b.bytes.drop 7) = b.slots := by
  rw [b.bytes_drop_header, slotsOf_append _ _ _ (flatMap_slotBytes_length _ whole).ge, slotsOf_flatMap_slotBytes _ whole]

variable (room : ∀ p, b.packet = some p → p.length ≤ 210)
include room

theorem LinkBlock.bytes_length : b.bytes.length = 219 + 192 * b.slots.length := by
  rw [b.bytes_eq, List.length_append, List.length_append, b.header_length, flatMap_slotBytes_length _ whole, windowOf_length room]
  omega

theorem LinkBlock.window_bytes : (b.bytes.drop (7 + 192 * b.slots.length)).take 212 = windowOf b.packet := by
  rw [← List.drop_drop, b.bytes_drop_header, ← flatMap_slotBytes_length _ whole, List.drop_left, List.take_of_length_le]
  exact (windowOf_length room).le

/-- A block sent on the outbound link is received as it was built, whatever follows it. -/
theorem LinkBlock.receiveOutboundLine_line (idle : List Bool) (slots : b.slots.length = 16) :
    receiveOutboundLine (b.line ++ idle) =
      some (.outboundGoodArrival b.seq (sentFlags b.filler b.packet.isSome) b.slots (windowOf b.packet)) := by
  have length : b.bytes.length = 3291 := by rw [b.bytes_length whole room, slots]
  have taken := b.slotsOf_bytes whole
  have window := b.window_bytes whole room
  rw [slots] at taken window
  rw [LinkBlock.line, receiveOutboundLine_lineBits idle length, receiveOutbound_good b.syncFound_bytes b.headerGood_bytes, taken, window,
    b.bytes_getD (by decide), b.bytes_getD (by decide)]
  rfl

/-- A block sent on the inbound link is received as it was built, whatever follows it. -/
theorem LinkBlock.receiveInboundLine_line (idle : List Bool) (slots : b.slots.length = 32) :
    receiveInboundLine (b.line ++ idle) =
      some (.inboundGoodArrival b.seq (sentFlags b.filler b.packet.isSome) b.slots (windowOf b.packet) []) := by
  have length : b.bytes.length = 6363 := by rw [b.bytes_length whole room, slots]
  have taken := b.slotsOf_bytes whole
  have window := b.window_bytes whole room
  rw [slots] at taken window
  rw [LinkBlock.line, receiveInboundLine_lineBits idle length, receiveInbound_good b.syncFound_bytes b.headerGood_bytes, taken, window,
    b.bytes_getD (by decide), b.bytes_getD (by decide)]
  rfl

end

end Sys2Proof.Machine
end

section
/-! COMMAND packets in their windows (R132, R143, R172 to R174), and O10. -/

namespace Sys2Proof.Machine

open Sys2Proof.Safety

/-! ### The bytes of a COMMAND packet (11.2) -/

/-- A COMMAND packet without its CRC. -/
def commandBody (distance : Nat) (tag code : Byte) (payload : List Byte) : List Byte :=
  BitVec.ofNat 8 (16 + distance) :: tag :: code :: BitVec.ofNat 8 payload.length :: payload

theorem commandPacketBytes_eq (distance : Nat) (tag code : Byte) (payload : List Byte) :
    commandPacketBytes distance tag code payload = withCrc (commandBody distance tag code payload) := rfl

theorem commandFirst_toNat {distance : Nat} (h : distance ≤ 15) : (BitVec.ofNat 8 (16 + distance)).toNat = 16 + distance := by
  rw [BitVec.toNat_ofNat]
  exact Nat.mod_eq_of_lt (by omega)

theorem eq_commandFirst {first : Byte} (kind : first.toNat / 16 = 1) : first = BitVec.ofNat 8 (16 + first.toNat % 16) := by
  have split : 16 + first.toNat % 16 = first.toNat := by omega
  rw [split, BitVec.ofNat_toNat, BitVec.setWidth_eq]

theorem commandFirst_sub_one {distance : Nat} (h : 1 ≤ distance) :
    BitVec.ofNat 8 (16 + distance) - 1 = BitVec.ofNat 8 (16 + (distance - 1)) := by
  obtain ⟨lower, rfl⟩ := Nat.exists_eq_add_of_le' h
  rw [← Nat.add_assoc, BitVec.ofNat_add, Nat.add_sub_cancel]
  exact BitVec.add_sub_cancel _ _

theorem payloadSize_toNat {payload : List Byte} (h : payload.length ≤ 200) : (BitVec.ofNat 8 payload.length).toNat = payload.length := by
  rw [BitVec.toNat_ofNat]
  exact Nat.mod_eq_of_lt (by omega)

/-- Lowering a packet's distance gives the packet with the distance one less, its CRC included. -/
theorem CommandPacket.lowered_commandBody {c : CommandPacket} {distance : Nat} {tag code : Byte} {payload : List Byte} (h : 1 ≤ distance)
    (packet : c.packet = withCrc (commandBody distance tag code payload)) :
    c.lowered = withCrc (commandBody (distance - 1) tag code payload) := by
  rw [CommandPacket.lowered, packet, packetBody_withCrc]
  show withCrc ((BitVec.ofNat 8 (16 + distance) - 1) :: _) = _
  rw [commandFirst_sub_one h]
  rfl

/-! ### Reading the packet that a window spells -/

theorem intact_of_take {window body : List Byte} (short : body.length ≤ 208)
    (spelt : window.take (body.length + 4) = bytes2 (body.length + 2) ++ withCrc body) : packetIntact window = true := by
  obtain ⟨length, packet⟩ := window_of_take short spelt
  rw [packetIntact, length, packet, packetBody_withCrc, withCrc_length, BEq.rfl, BEq.rfl, Bool.and_true, Bool.and_true]
  exact decide_eq_true (Nat.add_le_add_right short 2)

section
variable {window payload : List Byte} {first tag code size : Byte}

/-- A window that spells a packet of at least six bytes is read by the packet's fields alone. -/
theorem readCommand_of_take (short : payload.length ≤ 204)
    (spelt : window.take (payload.length + 8) = bytes2 (payload.length + 6) ++ withCrc (first :: tag :: code :: size :: payload)) :
    readCommand window =
      if first.toNat / 16 = 1 ∧ size.toNat ≤ 200 ∧ size.toNat = payload.length ∧ (first.toNat % 16 ≤ 7 ∨ first.toNat % 16 = 15) then
        some { distance := first.toNat % 16, tag := tag, code := code, payload := payload,
               packet := withCrc (first :: tag :: code :: size :: payload) }
      else none := by
  have short' : (first :: tag :: code :: size :: payload).length ≤ 208 := Nat.add_le_add_right short 4
  obtain ⟨length, packet⟩ := window_of_take short' spelt
  have intact := intact_of_take short' spelt
  have taken : ((withCrc (first :: tag :: code :: size :: payload)).drop 4).take payload.length = payload := List.take_left
  have kind : packetKind (withCrc (first :: tag :: code :: size :: payload)) = first.toNat / 16 := rfl
  have hop : packetHop (withCrc (first :: tag :: code :: size :: payload)) = first.toNat % 16 := rfl
  have sizeByte : payloadByte (withCrc (first :: tag :: code :: size :: payload)) 3 = size := rfl
  have whole : (first :: tag :: code :: size :: payload).length + 2 = 6 + size.toNat ↔ size.toNat = payload.length := by
    simp only [List.length_cons]
    omega
  unfold readCommand Config.payloadLimit
  simp only [packet, length, intact, kind, hop, sizeByte, whole, Bool.and_eq_true, Bool.or_eq_true, decide_eq_true_eq, beq_iff_eq, true_and,
    and_assoc]
  by_cases good : first.toNat / 16 = 1 ∧ size.toNat ≤ 200 ∧ size.toNat = payload.length ∧ (first.toNat % 16 ≤ 7 ∨ first.toNat % 16 = 15)
  · obtain ⟨-, -, sized, -⟩ := id good
    rw [if_pos good, if_pos good, sized, taken]
    rfl
  · rw [if_neg good, if_neg good]

/-- A window from which a COMMAND packet is read spells a packet of at least six bytes. -/
theorem take_of_readCommand {c : CommandPacket} (read : readCommand window = some c) :
    ∃ (first tag code size : Byte) (payload : List Byte), payload.length ≤ 204 ∧
      window.take (payload.length + 8) = bytes2 (payload.length + 6) ++ withCrc (first :: tag :: code :: size :: payload) := by
  unfold readCommand at read
  obtain ⟨good, -⟩ := (Option.ite_none_right_eq_some).mp read
  simp only [Bool.and_eq_true, beq_iff_eq] at good
  obtain ⟨⟨⟨⟨intact, -⟩, -⟩, length⟩, -⟩ := good
  have whole : (windowPacket window).length = windowLength window := by
    obtain ⟨⟨-, all⟩, -⟩ : (_ ∧ (windowPacket window).length = windowLength window) ∧ _ := by
      simpa only [packetIntact, Bool.and_eq_true, beq_iff_eq] using intact
    exact all
  have bodyLength : 4 ≤ (packetBody (windowPacket window)).length := by
    rw [packetBody, List.length_take]
    omega
  match body : packetBody (windowPacket window), bodyLength with
  | first :: tag :: code :: size :: payload, _ =>
    obtain ⟨short, spelt⟩ := spelt_of_intact intact body
    exact ⟨first, tag, code, size, payload, Nat.le_of_add_le_add_right (b := 3) short, spelt⟩

/-- The packet of a command at any distance is read where the distance is one that a chain uses. -/
theorem readCommand_commandBody {distance : Nat} (near : distance ≤ 15) (room : payload.length ≤ 200)
    (spelt : window.take (payload.length + 8) = bytes2 (payload.length + 6) ++ withCrc (commandBody distance tag code payload)) :
    readCommand window =
      if distance ≤ 7 ∨ distance = 15 then
        some { distance := distance, tag := tag, code := code, payload := payload, packet := withCrc (commandBody distance tag code payload) }
      else none := by
  have kind : (16 + distance) / 16 = 1 := by omega
  have hop : (16 + distance) % 16 = distance := by omega
  rw [readCommand_of_take (by omega) spelt]
  simp only [commandFirst_toNat near, payloadSize_toNat room, kind, hop, room, true_and]
  rfl

/-- A COMMAND packet is read from a window exactly where the window's first bytes spell one that a chain uses. -/
theorem readCommand_eq_some_iff {c : CommandPacket} :
    readCommand window = some c ↔
      (c.distance ≤ 7 ∨ c.distance = 15) ∧ c.payload.length ≤ 200 ∧ c.packet = withCrc (commandBody c.distance c.tag c.code c.payload) ∧
        window.take (c.payload.length + 8) = bytes2 (c.payload.length + 6) ++ c.packet := by
  constructor
  · intro read
    obtain ⟨first, tag, code, size, payload, short, spelt⟩ := take_of_readCommand read
    rw [readCommand_of_take short spelt] at read
    obtain ⟨⟨kind, limit, sized, hop⟩, fields⟩ := (Option.ite_none_right_eq_some).mp read
    cases fields
    have size_eq : size = BitVec.ofNat 8 payload.length := by rw [← sized, BitVec.ofNat_toNat, BitVec.setWidth_eq]
    refine ⟨hop, sized ▸ limit, ?_, spelt⟩
    rw [commandBody, ← size_eq, ← eq_commandFirst kind]
  · rintro ⟨hop, room, packet, spelt⟩
    rw [packet] at spelt
    rw [readCommand_commandBody (by omega) room spelt, if_pos hop, ← packet]

end

theorem readCommand_windowOf {distance : Nat} {tag code : Byte} {payload : List Byte} (near : distance ≤ 15) (room : payload.length ≤ 200) :
    readCommand (windowOf (some (commandPacketBytes distance tag code payload))) =
      if distance ≤ 7 ∨ distance = 15 then
        some { distance := distance, tag := tag, code := code, payload := payload, packet := commandPacketBytes distance tag code payload }
      else none :=
  readCommand_commandBody near room (windowOf_take (commandBody distance tag code payload))

/-! ### The samples of a slot in their places (R172) -/

section
variable {n k : Nat} {bytes : List Byte} (whole : 192 * n ≤ bytes.length) (inside : k < n)
include whole inside

theorem slotBytes_of_slotsOf_length : ((bytes.drop (192 * k)).take 192).length = 192 := by
  rw [List.length_take, List.length_drop]
  omega

theorem slotsOf_getD_length : ((slotsOf n bytes).getD k []).length = 64 := by
  rw [slotsOf_getD n bytes k inside, samplesOf_length, slotBytes_of_slotsOf_length whole inside]

theorem slotsOf_getD_getD {j : Nat} (hj : j < 64) :
    ((slotsOf n bytes).getD k []).getD j 0 =
      bytes.getD (192 * k + 3 * j) 0 ++ bytes.getD (192 * k + 3 * j + 1) 0 ++ bytes.getD (192 * k + 3 * j + 2) 0 := by
  have place : ∀ m < 192, ((bytes.drop (192 * k)).take 192).getD m 0 = bytes.getD (192 * k + m) 0 := by
    intro m hm
    rw [List.getD_eq_getElem?_getD, List.getElem?_take_of_lt hm, List.getElem?_drop, ← List.getD_eq_getElem?_getD]
  rw [slotsOf_getD n bytes k inside, samplesOf_getD _ j (by rw [slotBytes_of_slotsOf_length whole inside]; omega), place _ (by omega),
    place _ (by omega), place _ (by omega)]
  rfl

end

/-- Settles O10: the line, the header and the slots are read back by the rules above, and a COMMAND packet by
`readCommand_eq_some_iff` and `readCommand_windowOf`. -/
theorem commandPacketRoundTrip : Obligations.CommandPacketRoundTrip := by
  unfold Obligations.CommandPacketRoundTrip
  refine ⟨fun b => ⟨rfl, byteOfBits_byteBits b⟩, fun bytes => ⟨lineBits_length bytes, lineBytes_lineBits bytes⟩,
    fun bytes idle => ⟨receiveOutboundLine_lineBits idle, receiveInboundLine_lineBits idle⟩, fun bytes => ⟨?_, ?_, ?_⟩,
    fun n bytes whole => ⟨slotsOf_length n bytes,
      fun k inside => ⟨slotsOf_getD_length whole inside, fun j hj => slotsOf_getD_getD whole inside hj⟩⟩,
    fun window c => readCommand_eq_some_iff, fun b idle room whole => ⟨?_, ?_⟩,
    fun distance tag code payload near room => ⟨fun used => ?_, fun low high => ?_, fun low _ => ?_⟩⟩
  · exact fun unfound => receive_unfound (unfound ∘ (syncFound_iff bytes).mp)
  · exact fun found bad => receive_bad ((syncFound_iff bytes).mpr found) (bad ∘ (headerGood_iff bytes).mp)
  · intro found good
    rw [← syncFound_iff] at found
    have good' := (headerGood_iff bytes).mpr good
    exact ⟨receiveOutbound_good found good', receiveInbound_good found good'⟩
  · rw [← sentFlags_eq]
    exact b.receiveOutboundLine_line whole room idle
  · rw [← sentFlags_eq]
    exact b.receiveInboundLine_line whole room idle
  · rw [readCommand_windowOf near room, if_pos used]
  · rw [readCommand_windowOf near room, if_neg (by omega)]
  · exact CommandPacket.lowered_commandBody low rfl

end Sys2Proof.Machine
end

section
/-! A command packet and its row: the refusals of a packet that spells no row, the row read back, and the full reply queue (O11, O12, O53). -/

namespace Sys2Proof.Machine

open Sys2Proof.Safety

/-! ### Codes and rows (11.4) -/

/-- A payload fits its packet, whatever the code (R143, 11.4). -/
theorem commandLength_le {code : Byte} {n : Nat} (known : commandLength code = some n) : n ≤ 200 := by
  unfold commandLength at known
  split at known
  case h_33 => cases known
  all_goals cases known; decide

/-- A row read from a packet is a command, and carries the packet's tag (11.4). -/
theorem commandOf_commandRow {code tag : Byte} {p : List Byte} {row : Instr} (spelt : commandRow code tag p = some row) :
    ∃ code' payload', commandOf row = some (code', tag, payload') := by
  unfold commandRow at spelt
  dsimp only at spelt
  split at spelt
  case h_33 => cases spelt
  case h_32 =>
    unfold resetRow at spelt
    split at spelt
    · cases spelt
      exact ⟨_, _, rfl⟩
    split at spelt
    · cases spelt
      exact ⟨_, _, rfl⟩
    · cases spelt
  all_goals
    cases spelt
    exact ⟨_, _, rfl⟩

theorem resetRow_none {tag kind : Byte} (unnamed : 1 < kind.toNat) : resetRow tag kind = none := by
  have notFull : kind ≠ 0 := fun e => absurd unnamed (by rw [e]; decide)
  have notAdaptation : kind ≠ 1 := fun e => absurd unnamed (by rw [e]; decide)
  rw [resetRow, if_neg notFull, if_neg notAdaptation]

/-! ### Packets that spell no row (R145, R171) -/

section
variable {s : State} {code : Byte} (tag : Byte) {payload : List Byte}

/-- A refusal's whole effect is its reply (R145). -/
theorem State.take_refuse (code : Byte) (outcome : ReplyCode) (room : s.control.replies.length < 16) :
    (s.take code tag fun s => s.refuse outcome) = replied s tag code outcome [] := s.take_room code tag _ room

theorem State.takeCommand_unknown (room : s.control.replies.length < 16) (unknown : commandLength code = none) :
    s.takeCommand code tag payload = replied s tag code .unknown [] := by
  unfold State.takeCommand
  rw [unknown]
  exact State.take_refuse tag code .unknown room

theorem State.takeCommand_length {n : Nat} (room : s.control.replies.length < 16) (known : commandLength code = some n)
    (other : payload.length ≠ n) : s.takeCommand code tag payload = replied s tag code .length [] := by
  unfold State.takeCommand
  rw [known]
  exact (if_pos other).trans (State.take_refuse tag code .length room)

theorem State.takeCommand_resetKind {kind : Byte} (room : s.control.replies.length < 16) (unnamed : 1 < kind.toNat) :
    s.takeCommand 0x85 tag [kind] = replied s tag 0x85 .range [] := by
  have spelt : commandRow 0x85 tag [kind] = none := resetRow_none unnamed
  have known : commandLength 0x85 = some 1 := rfl
  unfold State.takeCommand
  rw [known, spelt]
  exact State.take_refuse tag 0x85 .range room

end

/-- Settles O11: the row and its packet are taken by one definition, and the packets that spell no row are refused. -/
theorem packetTakesItsRow : Obligations.PacketTakesItsRow := by
  refine ⟨fun i code tag payload s formed sent running => ?_, fun s code tag payload accepting unknown => ?_,
    fun s code tag payload n accepting known other => ?_, fun s tag kind accepting unnamed => ?_⟩
  · rw [exec_command i s (by rw [sent]; rfl), s.whilePortsRun_run _ running, s.takeCommand_commandOf formed sent]
  · exact State.takeCommand_unknown tag accepting.2 unknown
  · exact State.takeCommand_length tag accepting.2 known other
  · exact State.takeCommand_resetKind tag accepting.2 unnamed

/-- Settles O12: the length of the code, the packet's room, and the row read back field by field. -/
theorem commandRowsRoundTrip : Obligations.CommandRowsRoundTrip := fun _ _ _ _ formed sent =>
  have known := commandLength_commandOf formed sent
  ⟨known, commandLength_le known, commandRow_commandOf sent⟩

/-! ### A full reply queue (R144) -/

/-- A command row is taken under its own code and tag, in every state (R144). -/
theorem State.takeRow_eq_take {i : Instr} {code tag : Byte} {payload : List Byte} (sent : commandOf i = some (code, tag, payload)) :
    ∃ execute, ∀ s : State, s.takeRow i = s.take code tag execute := by
  cases i with
  | powerOn | resetPinAssert | resetPin | outboundGoodArrival | outboundBadArrival | blockIntervalTimerExpiry | lockAcquired | lockLoss
  | coreSilence | roomSilenceAdvance | roomSilence | inboundGoodArrival | inboundBadArrival | inboundBlockTransmit | seedStep | windowEnd
  | captureClip | activityHangoverExpiry | nearHangoverExpiry => cases sent
  | _ =>
    cases sent
    exact ⟨_, fun _ => rfl⟩

/-- With a full reply queue no command row is carried out, RESET FULL included. -/
theorem State.takeRow_full {s : State} {i : Instr} {code tag : Byte} {payload : List Byte} (full : 16 ≤ s.control.replies.length)
    (sent : commandOf i = some (code, tag, payload)) : s.takeRow i = s.raise .replyOverflow (.tag tag) (some tag) := by
  obtain ⟨execute, taken⟩ := State.takeRow_eq_take sent
  rw [taken, s.take_full code tag execute full]

theorem State.takeCommand_full {s : State} (code tag : Byte) (payload : List Byte) (full : 16 ≤ s.control.replies.length) :
    s.takeCommand code tag payload = s.raise .replyOverflow (.tag tag) (some tag) := by
  unfold State.takeCommand
  split
  · exact s.take_full code tag _ full
  split
  · exact s.take_full code tag _ full
  split
  · exact s.take_full code tag _ full
  · next row spelt =>
    obtain ⟨_, _, sent⟩ := commandOf_commandRow spelt
    exact State.takeRow_full full sent

/-- Settles O53: the row of a command and its packet, both by the full queue that every taking meets first. -/
theorem fullReplyQueueDropsCommands : Obligations.FullReplyQueueDropsCommands := by
  refine ⟨fun i code tag payload s sent running full => ?_, fun s code tag payload => State.takeCommand_full code tag payload⟩
  rw [exec_command i s (by rw [sent]; rfl), s.whilePortsRun_run _ running, State.takeRow_full full sent]

end Sys2Proof.Machine
end

section
/-! What a raise and a produced notice do to the whole state (O17). -/

namespace Sys2Proof.Machine

open Sys2Proof.Safety

/-! ### The fault log (R166, R167) -/

theorem OpState.working_eq (x : OpState) : x.working = (x == .run || x == .bypass) := by cases x <;> rfl

/-- The first-fault record after an unmasked raise: an occupied one stands (R167). -/
def State.recordAfter (s : State) (c : FaultClass) (subject : Subject) (tag : Option Byte) : Option FaultRecord :=
  match s.unit.record with
  | none => some { cls := c, subject := subject, tag := tag, seq := s.ports.lastSeq }
  | some r => some r

theorem State.noteRaise_eq (s : State) (c : FaultClass) (subject : Subject) (tag : Option Byte) :
    s.noteRaise c subject tag =
      { s with
        unit := { s.unit with record := s.recordAfter c subject tag, multiple := s.unit.multiple || s.unit.record.isSome } } := by
  unfold State.noteRaise State.recordAfter
  cases empty : s.unit.record with
  | none =>
    rw [Option.isSome_none, Bool.or_false]
    rfl
  | some r =>
    rw [Option.isSome_some, Bool.or_true]
    exact congrArg (fun x => s.setUnit { s.unit with record := x, multiple := true }) empty

/-- The log after an unmasked raise: its status set, and the record taken or the multiple flag set (R166, R167). -/
def State.logged (s : State) (c : FaultClass) (subject : Subject) (tag : Option Byte) : State :=
  { s with
    unit :=
      { s.unit with
        status := s.unit.status ||| (1#12 <<< c.code)
        record := s.recordAfter c subject tag
        multiple := s.unit.multiple || s.unit.record.isSome } }

theorem State.setStatus_noteRaise (s : State) (c : FaultClass) (subject : Subject) (tag : Option Byte) :
    (s.setStatus c).noteRaise c subject tag = s.logged c subject tag := (s.setStatus c).noteRaise_eq c subject tag

/-- A second entry sets the multiple flag, the record being occupied (R167). -/
theorem State.noteRaise_occupied {s : State} (occupied : s.unit.record.isSome = true) (c : FaultClass) (subject : Subject)
    (tag : Option Byte) : s.noteRaise c subject tag = { s with unit := { s.unit with multiple := true } } := by
  obtain ⟨r, occupied⟩ := Option.isSome_iff_exists.mp occupied
  unfold State.noteRaise
  rw [occupied]
  rfl

theorem State.recordAfter_isSome (s : State) (c : FaultClass) (subject : Subject) (tag : Option Byte) :
    (s.recordAfter c subject tag).isSome = true := by
  unfold State.recordAfter
  cases s.unit.record <;> rfl

/-! ### Entry to SAFE (R46, R166) -/

/-- A working part that has entered SAFE, before its STATE notice: the modulators resume with their memory cleared after BYPASS. -/
def State.enteredSafe (s : State) : State :=
  { s with
    unit := { s.unit with opState := .safe }
    modulators := if s.unit.opState = .bypass then s.modulators.map fun m => { m with lastIn := 0, lastOut := 0 } else s.modulators }

theorem State.changeOpState_safe {s : State} (working : s.unit.opState.working = true) : s.changeOpState .safe = s.enteredSafe := by
  unfold State.changeOpState State.enteredSafe
  cases op : s.unit.opState with
  | run | bypass => rfl
  | offline | safe =>
    rw [op] at working
    cases working

theorem State.enterState_safe {s : State} (working : s.unit.opState.working = true) (reason : Reason) (tag : Option Byte) :
    s.enterState .safe reason tag =
      if s.control.enableState then s.enteredSafe.postNotice (.state .safe reason s.unit.cause) tag else s.enteredSafe := by
  unfold State.enterState
  rw [State.changeOpState_safe working]
  rfl

/-! ### A produced notice (R155) -/

theorem State.postNotice_room (s : State) (room : s.control.notices.length < 8) (n : Notice) (tag : Option Byte) :
    s.postNotice n tag = { s with control := { s.control with notices := s.control.notices ++ [n] } } := if_pos room

theorem State.postNotice_full {s : State} (full : 8 ≤ s.control.notices.length) (n : Notice) (tag : Option Byte) :
    s.postNotice n tag = s.raiseOverflow n.kind tag := if_neg (Nat.not_lt.mpr full)

section
variable {s : State} (kind : NoticeKind) (tag : Option Byte)

theorem State.raiseOverflow_masked (masked : s.unit.masks.getLsbD 7 = true) :
    s.raiseOverflow kind tag = s.setStatus .noticeOverflow := if_pos masked

theorem State.raiseOverflow_set (unmasked : s.unit.masks.getLsbD 7 = false) (set : s.unit.status.getLsbD 7 = true) :
    s.raiseOverflow kind tag = s.noteRaise .noticeOverflow (.noticeKind kind) tag :=
  (if_neg (ne_true_of_eq_false unmasked)).trans (if_pos set)

/-- NOTICE_OVERFLOW from clear: if it enters SAFE, the STATE notice discarded there is one more raise, and sets the multiple flag (log 20). -/
theorem State.raiseOverflow_clear (unmasked : s.unit.masks.getLsbD 7 = false) (clear : s.unit.status.getLsbD 7 = false) :
    let noted := s.logged .noticeOverflow (.noticeKind kind) tag
    let enters := s.unit.severities.getLsbD 7 && s.unit.opState.working
    s.raiseOverflow kind tag =
      { noted with
        unit :=
          { noted.unit with
            multiple := noted.unit.multiple || (enters && s.control.enableState)
            opState := if enters then .safe else s.unit.opState }
        modulators :=
          if enters && s.unit.opState == .bypass then s.modulators.map fun m => { m with lastIn := 0, lastOut := 0 }
          else s.modulators } := by
  intro noted enters
  have occupied : noted.enteredSafe.unit.record.isSome = true := s.recordAfter_isSome _ _ _
  refine ((if_neg (ne_true_of_eq_false unmasked)).trans (if_neg (ne_true_of_eq_false clear))).trans ?_
  rw [State.setStatus_noteRaise]
  show (if enters = true then
    if s.control.enableState then (noted.changeOpState .safe).noteRaise .noticeOverflow (.noticeKind .state) tag
    else noted.changeOpState .safe else noted) = _
  cases enter : enters with
  | false =>
    rw [Bool.false_and, Bool.false_and, Bool.or_false]
    rfl
  | true =>
    have working : noted.unit.opState.working = true := (Bool.and_eq_true_iff.mp enter).2
    rw [if_pos rfl, State.changeOpState_safe working, Bool.true_and, Bool.true_and, State.noteRaise_occupied occupied]
    simp only [beq_iff_eq]
    cases s.control.enableState with
    | true =>
      rw [Bool.or_true]
      rfl
    | false =>
      rw [Bool.or_false]
      rfl

end

/-! ### A raise (R166) -/

/-- An unmasked raise from clear with its FAULT notice, before a grave one enters SAFE (R166). -/
def State.told (s : State) (c : FaultClass) (subject : Subject) (tag : Option Byte) : State :=
  if s.control.enableFault then (s.logged c subject tag).postNotice (.fault c subject) tag else s.logged c subject tag

section
variable {s : State} {c : FaultClass} (subject : Subject) (tag : Option Byte)

theorem State.told_reports : Reports s (s.told c subject tag) := by
  have noted : Reports s (s.logged c subject tag) :=
    s.setStatus_noteRaise c subject tag ▸ (s.setStatus_reports c).trans (State.noteRaise_reports _ c subject tag)
  unfold State.told
  split
  · exact noted.trans (State.postNotice_reports _ _ _)
  · exact noted

theorem State.told_room (room : s.control.notices.length < 8) :
    (s.told c subject tag).unit = (s.logged c subject tag).unit ∧
      (s.told c subject tag).control =
        { s.control with notices := s.control.notices ++ (if s.control.enableFault then [.fault c subject] else []) } := by
  have posted : ∀ n, (s.logged c subject tag).postNotice n tag = _ := fun n =>
    (s.logged c subject tag).postNotice_room room n tag
  unfold State.told
  split
  · rw [posted]
    exact ⟨rfl, rfl⟩
  · rw [List.append_nil]
    exact ⟨rfl, rfl⟩

theorem State.raise_masked (masked : s.unit.masks.getLsbD c.code = true) : s.raise c subject tag = s.setStatus c := if_pos masked

theorem State.raise_set (unmasked : s.unit.masks.getLsbD c.code = false) (set : s.unit.status.getLsbD c.code = true) :
    s.raise c subject tag = s.noteRaise c subject tag := (if_neg (ne_true_of_eq_false unmasked)).trans (if_pos set)

theorem State.raise_clear (unmasked : s.unit.masks.getLsbD c.code = false) (clear : s.unit.status.getLsbD c.code = false) :
    s.raise c subject tag =
      let told := s.told c subject tag
      if s.unit.severities.getLsbD c.code && told.unit.opState.working then
        (if s.control.enableState then told.enteredSafe.postNotice (.state .safe (.fault c) s.unit.cause) tag else told.enteredSafe)
      else told := by
  have told := State.told_reports (s := s) (c := c) subject tag
  refine ((if_neg (ne_true_of_eq_false unmasked)).trans (if_neg (ne_true_of_eq_false clear))).trans ?_
  rw [State.setStatus_noteRaise]
  refine if_ctx_congr Iff.rfl (fun enters => ?_) fun _ => rfl
  have working : (s.told c subject tag).unit.opState.working = true := (Bool.and_eq_true_iff.mp enters).2
  rw [← told.enableState, ← told.cause]
  exact State.enterState_safe working _ _

/-- A raise from clear with room for both notices: the fault unit and the control unit. -/
theorem State.raise_clear_room (unmasked : s.unit.masks.getLsbD c.code = false) (clear : s.unit.status.getLsbD c.code = false)
    (room : s.control.notices.length ≤ 6) :
    let enters := s.unit.severities.getLsbD c.code && s.unit.opState.working
    (s.raise c subject tag).unit =
        { (s.logged c subject tag).unit with opState := if enters then .safe else s.unit.opState } ∧
      (s.raise c subject tag).control =
        { s.control with
          notices :=
            s.control.notices ++ (if s.control.enableFault then [.fault c subject] else []) ++
              (if enters && s.control.enableState then [.state .safe (.fault c) s.unit.cause] else []) } := by
  obtain ⟨unit, control⟩ := State.told_room (c := c) subject tag (Nat.lt_of_le_of_lt room (by decide))
  have opState : (s.told c subject tag).unit.opState = s.unit.opState := by rw [unit]; rfl
  have few : (s.told c subject tag).control.notices.length < 8 := by
    rw [control, List.length_append]
    split <;> simp only [List.length_cons, List.length_nil] <;> omega
  have posted : ∀ n, (s.told c subject tag).enteredSafe.postNotice n tag = _ := fun n =>
    (s.told c subject tag).enteredSafe.postNotice_room few n tag
  have safeUnit : (s.told c subject tag).enteredSafe.unit = { (s.told c subject tag).unit with opState := .safe } := rfl
  have safeControl : (s.told c subject tag).enteredSafe.control = (s.told c subject tag).control := rfl
  rw [State.raise_clear subject tag unmasked clear]
  dsimp only
  rw [opState]
  generalize (s.unit.severities.getLsbD c.code && s.unit.opState.working) = enters
  cases enters with
  | false =>
    refine ⟨unit, control.trans ?_⟩
    rw [Bool.false_and, if_neg Bool.false_ne_true, List.append_nil]
  | true =>
    rw [if_pos rfl, if_pos rfl, Bool.true_and]
    split
    · rw [posted, safeUnit, safeControl, unit, control]
      exact ⟨rfl, rfl⟩
    · rw [List.append_nil, safeUnit, safeControl, unit, control]
      exact ⟨rfl, rfl⟩

end

/-- Settles O17: a notice by the room in its queue, a raise by mask and status, and a raise with room for both of its notices. -/
theorem raiseRule : Obligations.RaiseRule := by
  refine ⟨fun s n tag => ?_, fun s c subject tag => ?_, fun s c subject tag room => ?_⟩
  · intro status record multiple entersSafe
    have enters : entersSafe = (s.unit.severities.getLsbD 7 && s.unit.opState.working) := by rw [OpState.working_eq]
    refine ⟨fun room => s.postNotice_room room n tag, fun full => ?_⟩
    rw [State.postNotice_full full, enters]
    refine ⟨fun masked => State.raiseOverflow_masked _ _ masked, fun unmasked set => ?_, fun unmasked clear => ?_⟩
    · rw [State.raiseOverflow_set _ _ unmasked set, State.noteRaise_eq]
      rfl
    · rw [State.raiseOverflow_clear _ _ unmasked clear]
      rfl
  · intro record multiple set told safe
    refine ⟨fun masked => State.raise_masked _ _ masked, fun unmasked set => ?_, fun unmasked clear => ?_⟩
    · rw [State.raise_set _ _ unmasked set, State.noteRaise_eq]
      rfl
    · rw [State.raise_clear _ _ unmasked clear, ← OpState.working_eq]
      rfl
  · intro status record multiple entersSafe
    have enters : entersSafe = (s.unit.severities.getLsbD c.code && s.unit.opState.working) := by rw [OpState.working_eq]
    have told := s.raise_reports c subject tag
    refine ⟨fun masked => State.raise_masked _ _ masked, fun unmasked set => ?_, fun unmasked clear => ?_, told.ports, told.references,
      told.histories, told.channels, told.paths, told.pool, told.seed, told.comparator, told.decision, told.pending⟩
    · rw [State.raise_set _ _ unmasked set, State.noteRaise_eq]
      rfl
    · rw [enters]
      exact State.raise_clear_room subject tag unmasked clear room

end Sys2Proof.Machine
end

section
/-! The inbound window arbiter (O22), READ PATH and ABORT READ (O50). -/

namespace Sys2Proof.Machine

open Sys2Proof.Safety

/-! ### The bytes of the part's own packets (R155, R172, 11.5) -/

theorem Subject.bytes_eq (x : Subject) :
    x.bytes =
      match x with
      | .port .core => [1, 0, 0, 0]
      | .port .room => [1, 1, 0, 0]
      | .channel c => [2, BitVec.ofNat 8 c, 0, 0]
      | .reference r => [3, BitVec.ofNat 8 r, 0, 0]
      | .path p k => [4, BitVec.ofNat 8 p, BitVec.ofNat 8 (k / 256), BitVec.ofNat 8 k]
      | .bankEntry b e => [5, BitVec.ofNat 8 b, BitVec.ofNat 8 (e / 256), BitVec.ofNat 8 e]
      | .tag t => [6, t, 0, 0]
      | .noticeKind .fault => [7, 1, 0, 0]
      | .noticeKind .state => [7, 2, 0, 0]
      | .noticeKind .pathReady => [7, 3, 0, 0] := by
  cases x with
  | port p => cases p <;> rfl
  | noticeKind k => cases k <;> rfl
  | path p k => exact congrArg ([4, byteOf p] ++ ·) (bytes2_eq k)
  | bankEntry b e => exact congrArg ([5, byteOf b] ++ ·) (bytes2_eq e)
  | channel | reference | tag => rfl

/-- The ABORTED packet, with the three bits of its byte 3 that have content (R152, 11.2). -/
theorem Readback.abortedBody_eq (rb : Readback) :
    ∃ b : Byte, rb.abortedBody = [0x30, rb.tag, BitVec.ofNat 8 rb.path, b, BitVec.ofNat 8 (rb.next / 256), BitVec.ofNat 8 rb.next] ∧
      b.getLsbD 7 = decide (rb.set = .background) ∧ b.getLsbD 1 = true ∧ b.getLsbD 0 = false := by
  refine ⟨byteOf (rb.set.byte.toNat * 0x80 + 2), ?_, ?_⟩
  · unfold Readback.abortedBody
    rw [bytes2_eq]
    rfl
  · cases rb.set <;> decide

/-! ### The arbiter's decision (R158, R159) -/

theorem Control.ownOffers_iff (c : Control) : c.ownOffers = true ↔ c.replies ≠ [] ∨ c.notices ≠ [] ∨ c.streamer ≠ .idle := by
  simp [Control.ownOffers, or_assoc]

theorem Control.ownOffers_eq_false {c : Control} (replies : c.replies = []) (notices : c.notices = []) (idle : c.streamer = .idle) :
    c.ownOffers = false := by
  rw [Bool.eq_false_iff, ne_eq, c.ownOffers_iff]
  simp [replies, notices, idle]

section
variable {c : Control} {p : List Byte} {rest : List (List Byte)}

theorem Control.decide_none (empty : c.forward = []) (silent : c.ownOffers = false) : c.decide = (none, c.winner) := by
  unfold Control.decide Control.forwardOffers
  rw [empty, silent]
  rfl

theorem Control.decide_forward_alone (queued : c.forward = p :: rest) (silent : c.ownOffers = false) :
    c.decide = (some .forward, c.winner) := by
  unfold Control.decide Control.forwardOffers
  rw [queued, silent]
  rfl

/-- The forward source wins a contention after the own source has won one. -/
theorem Control.decide_forward (queued : c.forward = p :: rest) (offers : c.ownOffers = true) (turn : c.winner = .own) :
    c.decide = (some .forward, .forward) := by
  unfold Control.decide Control.forwardOffers
  rw [queued, offers, turn]
  rfl

end

/-! ### The grant (R151, R152, R159) -/

section
variable {s : State}

theorem State.arbitrate_none (decided : s.control.decide = (none, s.control.winner)) : s.arbitrate = (none, s) := by
  unfold State.arbitrate
  rw [decided]
  rfl

theorem State.arbitrate_forward {winner : Source} {p : List Byte} {rest : List (List Byte)} (queued : s.control.forward = p :: rest)
    (decided : s.control.decide = (some .forward, winner)) :
    s.arbitrate = (some (withCrc p), { s with control := { s.control with forward := rest, winner := winner } }) := by
  unfold State.arbitrate State.grantForward
  rw [decided]
  dsimp only [State.setControl_control]
  rw [queued]
  rfl

/-- The own source granted, against a forward source that offers nothing or has won the last contention. -/
theorem State.arbitrate_own (offers : s.control.ownOffers = true) (turn : s.control.forward = [] ∨ s.control.winner = .forward) :
    s.arbitrate = (s.setControl s.control.ownGranted).grantOwn := by
  unfold State.arbitrate
  rw [s.control.decide_own offers turn]
  rfl

theorem State.grantOwn_reply {r : Reply} {replies : List Reply} (queued : s.control.replies = r :: replies) :
    s.grantOwn = (some (withCrc r.body), s.setControl { s.control with replies := replies }) := by
  unfold State.grantOwn
  rw [queued]

theorem State.grantOwn_notice {n : Notice} {notices : List Notice} (replies : s.control.replies = [])
    (queued : s.control.notices = n :: notices) :
    s.grantOwn = (some (withCrc n.body), s.setControl { s.control with notices := notices }) := by
  unfold State.grantOwn
  rw [replies, queued]

theorem State.grantOwn_aborted {rb : Readback} (replies : s.control.replies = []) (notices : s.control.notices = [])
    (closing : s.control.streamer = .closing rb) : s.grantOwn = (some (withCrc rb.abortedBody), s.setStreamer .idle) := by
  unfold State.grantOwn
  rw [replies, notices, closing]

/-- INBOUND_BLOCK_TRANSMIT: the packet that the arbiter grants, in the window of the next waiting block (R158). -/
theorem exec_transmit {b : InboundBlock} {line : List InboundBlock} {granted : Option (List Byte) × State}
    (running : s.ports.pinHeld = false) (ready : s.ports.coreLine = b :: line) (arbitrated : s.arbitrate = granted) :
    exec .inboundBlockTransmit s =
      .next { granted.2 with
        ports :=
          { granted.2.ports with
            coreLine := line, coreTx := some { seq := b.seq, filler := b.filler, slots := b.slots, packet := granted.1 } } } := by
  have row : exec .inboundBlockTransmit s = .next (s.whilePortsRun State.transmit) := rfl
  rw [row, s.whilePortsRun_run _ running]
  unfold State.transmit
  rw [ready, arbitrated]
  rfl

end

/-- Settles O22: the packets' bytes, then the transmission by what each source offers and who won the last contention. -/
theorem arbiterGrants : Obligations.ArbiterGrants := by
  refine ⟨fun _ => rfl, fun r => ?_, fun c subject => ?_, fun new reason cause => ?_, fun _ => rfl, Readback.abortedBody_eq, ?_⟩
  · rfl
  · exact congrArg ([0x40, 1, 5, byteOf c.code] ++ ·) subject.bytes_eq
  · rfl
  · intro s b line running ready sent
    refine ⟨fun forward replies notices idle => ?_, fun p rest forward replies notices idle => ?_, fun p rest forward offers turn => ?_,
      fun turn => ?_⟩
    · exact exec_transmit running ready
        (State.arbitrate_none (Control.decide_none forward (Control.ownOffers_eq_false replies notices idle)))
    · exact exec_transmit running ready
        (State.arbitrate_forward forward (Control.decide_forward_alone forward (Control.ownOffers_eq_false replies notices idle)))
    · exact exec_transmit running ready
        (State.arbitrate_forward forward (Control.decide_forward forward (s.control.ownOffers_iff.mpr offers) turn))
    · have own := fun offers => State.arbitrate_own (s := s) (s.control.ownOffers_iff.mpr offers) turn
      refine ⟨fun r replies queued => ?_, fun n notices replies queued => ?_, fun rb replies notices closing => ?_⟩
      · exact exec_transmit running ready ((own (.inl (by simp [queued]))).trans (State.grantOwn_reply queued))
      · exact exec_transmit running ready ((own (.inr (.inl (by simp [queued])))).trans (State.grantOwn_notice replies queued))
      · exact exec_transmit running ready
          ((own (.inr (.inr (by simp [closing])))).trans (State.grantOwn_aborted replies notices closing))

/-! ### READ PATH (R149, R150) -/

theorem readSetOf_eq_background {set : Byte} (named : set.toNat ≤ 1) : readSetOf set = .background ↔ set = 1 := by
  unfold readSetOf
  split
  · next live => simp [live]
  · next other =>
    refine iff_of_true rfl (BitVec.eq_of_toNat_eq ?_)
    have : set.toNat ≠ 0 := fun zero => other (BitVec.eq_of_toNat_eq zero)
    show set.toNat = 1
    omega

/-- A readback recorded, field by field: a BACKGROUND one makes the path read-held (R150). -/
theorem State.startReadback_eq (s : State) (rb : Readback) :
    s.startReadback rb =
      { s with
        control := { s.control with streamer := .streaming rb }
        paths := if rb.set = .background then s.paths.set rb.path { s.path rb.path with readHeld := true } else s.paths } := by
  unfold State.startReadback
  dsimp only
  split <;> rfl

/-! ### ABORT READ (R152, R153) -/

theorem Streamer.isStreaming_eq_false {x : Streamer} (other : ∀ rb, x ≠ .streaming rb) : x.isStreaming = false := by
  cases x with
  | streaming rb => exact absurd rfl (other rb)
  | idle | closing => rfl

/-- An aborted readback: its ABORTED packet held, and the path released before a pending promote is applied (R75, R152). -/
theorem State.abortReadback_streaming {s : State} {rb : Readback} (reading : s.control.streamer = .streaming rb) :
    s.abortReadback = (s.setStreamer (.closing rb)).finishReadback rb := by
  unfold State.abortReadback
  rw [reading]

/-- Settles O50: the checks of R149 one after another, and the abort by what the end of a readback can do. -/
theorem readbackCommands : Obligations.ReadbackCommands := by
  refine ⟨fun s tag path set first count accepting => ?_, fun s tag accepting => ⟨fun other => ?_, fun rb reading => ?_⟩⟩
  · intro r result inRange readable
    have ran : result = _ := exec_taken accepting rfl
    have ranges : (63 < path.toNat ∨ 1 < set.toNat ∨ 447 < first.toNat ∨ count.toNat < 1 ∨ 448 < count.toNat) ↔ ¬inRange := by
      simp only [inRange]
      omega
    have unreadable : inRange → ((r.state = .unused ∨ r.state = .seeding ∧ readSetOf set = .background) ↔ ¬readable) := by
      rintro ⟨-, named, -⟩
      rw [readSetOf_eq_background named]
      show _ ↔ ¬(¬_ ∧ ¬_)
      rw [← not_or, not_not]
    have held : ∀ x y : List PathRecord, (if readSetOf set = .background then x else y) = if set = 0 then y else x := fun x y => by
      unfold readSetOf
      split <;> rfl
    rw [ran]
    refine ⟨fun outside => ?_, fun inside busy => ?_, fun inside idle unread => ?_, fun inside idle read beyond => ?_,
      fun inside idle read within => ?_⟩
    · rw [if_pos (ranges.mpr outside)]
      rfl
    · rw [if_neg (mt ranges.mp (not_not.mpr inside)), if_pos busy]
      rfl
    · rw [if_neg (mt ranges.mp (not_not.mpr inside)), if_neg (not_not.mpr idle), if_pos ((unreadable inside).mpr unread)]
      rfl
    · rw [if_neg (mt ranges.mp (not_not.mpr inside)), if_neg (not_not.mpr idle),
        if_neg (mt (unreadable inside).mp (not_not.mpr read)), if_pos (show r.length < _ from beyond)]
      rfl
    · rw [if_neg (mt ranges.mp (not_not.mpr inside)), if_neg (not_not.mpr idle),
        if_neg (mt (unreadable inside).mp (not_not.mpr read)), if_neg (show ¬r.length < _ from Nat.not_lt.mpr within),
        State.startReadback_eq, held]
      rfl
  · have ran := exec_taken (i := .abortRead tag) accepting rfl
    rw [ran, Streamer.isStreaming_eq_false other]
    rfl
  · intro ended
    have ran := exec_taken (i := .abortRead tag) accepting rfl
    have streaming : s.control.streamer.isStreaming = true := by rw [reading]; rfl
    have closed : (s.setStreamer (.closing rb)).unheld rb = ended := State.unheld_eq _ rb
    rw [if_pos streaming, State.abortReadback_streaming reading] at ran
    rw [ran]
    rcases (s.setStreamer (.closing rb)).finishReadback_cases rb with ⟨finished, settled⟩ | ⟨k, owner, pending, finished⟩
    · rw [finished, closed]
      refine ⟨fun _ => rfl, fun c owner pending => ?_⟩
      cases (settled c owner).symm.trans pending
    · rw [finished, closed]
      refine ⟨fun settled => ?_, fun c owner' _ => ?_⟩
      · cases (settled k owner).symm.trans pending
      · obtain rfl : k = c := Option.some.inj (owner.symm.trans owner')
        rfl

end Sys2Proof.Machine
end

section
/-! The rows that wait: no operation of the part touches the queue behind the row in front (O1). -/

namespace Sys2Proof.Machine

/-! ### Shared operations -/

section
variable (s : State)

@[simp] theorem State.postNotice_pending (n : Notice) (tag : Option Byte) : (s.postNotice n tag).pending = s.pending :=
  (s.postNotice_reports n tag).pending

@[simp] theorem State.enterState_pending (new : OpState) (reason : Reason) (tag : Option Byte) :
    (s.enterState new reason tag).pending = s.pending := (s.enterState_reports new reason tag).pending

@[simp] theorem State.checkChannel_pending (c : Nat) (tag : Byte) : (s.checkChannel c tag).pending = s.pending :=
  (s.checkChannel_reports c tag).pending

@[simp] theorem State.checkReference_pending (r : Nat) (tag : Byte) : (s.checkReference r tag).pending = s.pending :=
  (s.checkReference_reports r tag).pending

@[simp] theorem State.checkOtherChannels_pending (c : Nat) (tag : Byte) : (s.checkOtherChannels c tag).pending = s.pending :=
  (s.checkOtherChannels_reports c tag).pending

@[simp] theorem State.checkOtherReferences_pending (r : Nat) (tag : Byte) : (s.checkOtherReferences r tag).pending = s.pending :=
  (s.checkOtherReferences_reports r tag).pending

@[simp] theorem State.applyPromotion_pending (c : Nat) : (s.applyPromotion c).pending = s.pending :=
  (s.applyPromotion_blockWork c).pending

@[simp] theorem State.resetComparisonFully_pending (c : Nat) : (s.resetComparisonFully c).pending = s.pending := rfl

@[simp] theorem State.setQueue_pending (q : List SeedRequest) : (s.setQueue q).pending = s.pending := rfl

@[simp] theorem State.returnFree_pending (run : List Nat) : (s.returnFree run).pending = s.pending := rfl

@[simp] theorem State.finishReadback_pending (rb : Readback) : (s.finishReadback rb).pending = s.pending := by
  have unheld : (s.unheld rb).pending = s.pending := by rw [State.unheld_eq]
  rcases s.finishReadback_cases rb with ⟨finished, -⟩ | ⟨c, -, -, finished⟩
  · rw [finished, unheld]
  · rw [finished, State.applyPromotion_pending, unheld]

@[simp] theorem State.abortReadback_pending : s.abortReadback.pending = s.pending := by
  unfold State.abortReadback
  split
  · exact State.finishReadback_pending _ _
  · rfl
  · rfl

end

/-! ### The seed engine and the arbiter -/

theorem State.rewritePartition_pending (s : State) (q : SeedRequest) : (s.rewritePartition q).pending = s.pending := by
  unfold State.rewritePartition
  dsimp only
  split
  · rfl
  split
  · rfl
  split
  · exact State.raise_pending _ _ _ _
  · rfl

theorem State.completeRequest_pending (s : State) (q : SeedRequest) : (s.completeRequest q).pending = s.pending := by
  unfold State.completeRequest
  dsimp only
  split
  · exact State.postNotice_pending _ _ _
  · rfl

theorem State.seedOne_pending (s : State) : s.seedOne.pending = s.pending := by
  unfold State.seedOne
  split
  · rfl
  · dsimp only
    split
    · rw [State.completeRequest_pending, State.setQueue_pending, State.rewritePartition_pending]
    · rw [State.setQueue_pending, State.rewritePartition_pending]

theorem State.seedRun_pending (n : Nat) (s : State) : (State.seedRun n s).pending = s.pending := by
  induction n generalizing s with
  | zero => rfl
  | succ n ih => exact (ih s.seedOne).trans s.seedOne_pending

theorem State.takeSeedStep_pending (s : State) : s.takeSeedStep.pending = s.pending := by
  unfold State.takeSeedStep State.stepSeed
  split
  · split
    · exact State.seedRun_pending _ _
    · rfl
  · rfl

theorem State.grantData_pending (s : State) (rb : Readback) : (s.grantData rb).2.pending = s.pending := by
  have read : (s.sourceRead rb).pending = s.pending := (s.sourceRead_reports rb).pending
  unfold State.grantData
  dsimp only
  split
  · exact (State.finishReadback_pending _ rb).trans read
  · exact read

theorem State.arbitrate_pending (s : State) : s.arbitrate.2.pending = s.pending := by
  unfold State.arbitrate
  dsimp only
  split
  · rfl
  · unfold State.grantForward
    split <;> rfl
  · unfold State.grantOwn
    split
    · rfl
    · rfl
    · exact State.grantData_pending _ _
    · rfl
    · rfl

theorem State.transmit_pending (s : State) : s.transmit.pending = s.pending := by
  unfold State.transmit
  split
  · rfl
  · exact s.arbitrate_pending

/-! ### Commands -/

/-- A taking leaves the rows that wait where its execution does. -/
theorem State.take_pending {s : State} {code tag : Byte} {execute : State → Answer} (h : (execute s).state.pending = s.pending) :
    (s.take code tag execute).pending = s.pending := by
  unfold State.take
  split
  · exact State.raise_pending _ _ _ _
  · exact h

/-- What an execution by cases leaves waiting. -/
theorem Answer.ite_pending {p : Prop} [Decidable p] {a b : Answer} {waiting : List Instr} (yes : a.state.pending = waiting)
    (no : b.state.pending = waiting) : (if p then a else b).state.pending = waiting := by
  split
  · exact yes
  · exact no

section
variable (s : State)

theorem State.allocate_pending (p c r n step : Nat) : (s.allocate p c r n step).pending = s.pending := by
  rw [State.allocate_eq]

theorem State.takeAllocatePath_pending (tag channel reference : Byte) (length : Half) (step : Byte) :
    (s.takeAllocatePath tag channel reference length step).pending = s.pending := by
  have read2 := s.checkReference_pending reference.toNat tag
  have read4 := (State.checkChannel_pending (s.checkReference reference.toNat tag) channel.toNat tag).trans read2
  refine State.take_pending (Answer.ite_pending rfl (Answer.ite_pending read2 (Answer.ite_pending read2
    (Answer.ite_pending read4 (Answer.ite_pending read4 ?_)))))
  split
  · exact read4
  · exact Answer.ite_pending read4 ((State.allocate_pending _ _ _ _ _ _).trans read4)

theorem State.endWorkOn_pending (p : Nat) : (s.endWorkOn p).pending = s.pending := by
  have cleared : (match (s.path p).owner with
      | some c => s.clearPending c
      | none => s).pending = s.pending := by
    split <;> rfl
  have ended : ∀ t : State, t.pending = s.pending → (if t.readbackOf p then t.abortReadback else t).pending = s.pending := fun t ht => by
    split
    · rw [State.abortReadback_pending, ht]
    · exact ht
  exact ended _ cleared

theorem State.release_pending (p : Nat) : (s.release p).pending = s.pending := by
  unfold State.release
  dsimp only
  split
  · rw [State.resetComparisonFully_pending, State.putChannel_pending, State.putPath_pending, State.returnFree_pending,
      State.endWorkOn_pending]
  · rw [State.putPath_pending, State.returnFree_pending, State.endWorkOn_pending]

theorem State.resetOwner_pending (p : Nat) : (s.resetOwner p).pending = s.pending := by
  unfold State.resetOwner
  split <;> rfl

theorem State.truncate_pending (p n : Nat) : (s.truncate p n).pending = s.pending := State.resetOwner_pending _ p

theorem State.extend_pending (p n : Nat) : (s.extend p n).pending = s.pending := State.resetOwner_pending _ p

theorem State.takeResizePath_pending (tag path : Byte) (length : Half) : (s.takeResizePath tag path length).pending = s.pending := by
  have checked : (match (s.path path.toNat).reference with
      | some k => s.checkReference k tag
      | none => s).pending = s.pending := by
    split
    · exact s.checkReference_pending _ _
    · rfl
  exact State.take_pending (Answer.ite_pending rfl (Answer.ite_pending rfl (Answer.ite_pending rfl
    (Answer.ite_pending rfl (Answer.ite_pending rfl (Answer.ite_pending rfl
      (Answer.ite_pending ((State.truncate_pending _ _ _).trans checked) ((State.extend_pending _ _ _).trans checked))))))))

theorem State.takeWriteChannel_pending (tag channel slot mode : Byte) :
    (s.takeWriteChannel tag channel slot mode).pending = s.pending := by
  have others := s.checkOtherChannels_pending channel.toNat tag
  refine State.take_pending (Answer.ite_pending rfl ?_)
  split
  · rfl
  · exact Answer.ite_pending others ((State.checkChannel_pending _ _ _).trans others)

theorem State.writeReference_pending (r : Nat) (slot : Option Nat) (bulk depth : Nat) (threshold : Int) (hangover : Nat) :
    (s.writeReference r slot bulk depth threshold hangover).pending = s.pending := by
  unfold State.writeReference
  dsimp only
  split
  · rfl
  · split
    · split <;> rfl
    · split <;> rfl

theorem State.takeWriteReference_pending (tag reference slot bulk depth : Byte) (threshold : Half) (hangover : Byte) :
    (s.takeWriteReference tag reference slot bulk depth threshold hangover).pending = s.pending := by
  have others := s.checkOtherReferences_pending reference.toNat tag
  exact State.take_pending (Answer.ite_pending rfl (Answer.ite_pending others (Answer.ite_pending others (Answer.ite_pending others
    ((State.writeReference_pending _ _ _ _ _ _ _).trans ((State.checkReference_pending _ _ _).trans others))))))

theorem State.freeze_pending (c : Nat) (value : Bool) : (s.freeze c value).pending = s.pending := by
  unfold State.freeze
  dsimp only
  split
  · rfl
  · split <;> rfl

theorem State.takeSetMode_pending (tag mode : Byte) : (s.takeSetMode tag mode).pending = s.pending := by
  refine State.take_pending ?_
  split
  · rfl
  · refine Answer.ite_pending rfl (Answer.ite_pending rfl (Answer.ite_pending rfl ?_))
    refine (State.enterState_pending _ _ _ _).trans ?_
    split <;> rfl

/-- A command leaves the rows that wait (R144). -/
theorem State.takeRow_pending (i : Instr) : (s.takeRow i).pending = s.pending := by
  cases i with
  | allocatePath t channel reference length step => exact s.takeAllocatePath_pending t channel reference length step
  | releasePath t path => exact State.take_pending (Answer.ite_pending rfl (Answer.ite_pending rfl (s.release_pending _)))
  | resizePath t path length => exact s.takeResizePath_pending t path length
  | writeChannel t channel slot mode => exact s.takeWriteChannel_pending t channel slot mode
  | readChannel t channel => exact State.take_pending (Answer.ite_pending rfl (s.checkChannel_pending _ t))
  | writeReference t reference slot bulk depth threshold hangover =>
    exact s.takeWriteReference_pending t reference slot bulk depth threshold hangover
  | readReference t reference => exact State.take_pending (Answer.ite_pending rfl (s.checkReference_pending _ t))
  | freezeChannel t channel value => exact State.take_pending (Answer.ite_pending rfl (s.freeze_pending _ _))
  | writeCoeff t path index taps =>
    refine State.take_pending (Answer.ite_pending rfl (Answer.ite_pending rfl (Answer.ite_pending rfl ?_)))
    split <;> rfl
  | promoteChannel t channel =>
    exact State.take_pending (Answer.ite_pending rfl (Answer.ite_pending rfl (Answer.ite_pending rfl (s.applyPromotion_pending _))))
  | readDecision t bank entry =>
    refine State.take_pending (Answer.ite_pending rfl (?_ : State.pending (if _ then _ else _) = _))
    split
    · exact s.raise_pending _ _ _
    · rfl
  | readPath t path set first count =>
    refine State.take_pending (Answer.ite_pending rfl (Answer.ite_pending rfl (Answer.ite_pending rfl (Answer.ite_pending rfl ?_))))
    show (s.startReadback _).pending = s.pending
    rw [State.startReadback_eq]
  | abortRead t => exact State.take_pending (Answer.ite_pending s.abortReadback_pending rfl)
  | setMode t mode => exact s.takeSetMode_pending t mode
  | setSafeAction t action =>
    refine State.take_pending ?_
    split <;> rfl
  | resetFull t => exact State.take_pending s.clearAllPending.abortReadback_pending
  | resetAdaptation t => exact State.take_pending s.clearAllPending.abortReadback_pending
  | readPool | status | readFaults => exact State.take_pending rfl
  | readPathRecord | writeComparison | readChannelStats | readSeedQueue | writeDetector | selectDecisionBank | writeSuppressor | setNotice
  | clearFaults | writeFaultPolicy => exact State.take_pending (Answer.ite_pending rfl rfl)
  | setStep | writeDecision | readChain => exact State.take_pending (Answer.ite_pending rfl (Answer.ite_pending rfl (Answer.ite_pending rfl rfl)))
  | powerOn | resetPinAssert | resetPin | outboundGoodArrival | outboundBadArrival | blockIntervalTimerExpiry | lockAcquired | lockLoss
  | coreSilence | roomSilenceAdvance | roomSilence | inboundGoodArrival | inboundBadArrival | inboundBlockTransmit | seedStep | windowEnd
  | captureClip | activityHangoverExpiry | nearHangoverExpiry => rfl

theorem State.takeCommand_pending (code tag : Byte) (payload : List Byte) : (s.takeCommand code tag payload).pending = s.pending := by
  unfold State.takeCommand
  split
  · exact State.take_pending rfl
  split
  · exact State.take_pending rfl
  split
  · exact State.take_pending rfl
  · exact s.takeRow_pending _

/-! ### Block periods and link blocks -/

theorem State.whilePortsRun_pending {f : State → State} (h : (f s).pending = s.pending) : (s.whilePortsRun f).pending = s.pending :=
  State.whilePortsRun_keeps (P := fun t => t.pending = s.pending) rfl f h

theorem State.outboundGood_pending (seq flags : Byte) (slots : List Slot) (window : List Byte) (stepFirst : Bool) :
    (s.outboundGood seq flags slots window stepFirst).pending = s.pending := by
  have opened : (s.openPeriod stepFirst).pending = s.pending := by
    unfold State.openPeriod
    split
    · exact (State.takeSeedStep_pending _).trans s.markPeriod_periodWork.pending
    · exact s.markPeriod_periodWork.pending
  have tapped := ((State.judgeHeader_periodWork (s.openPeriod stepFirst) seq).trans (State.tapAll_spec _ slots).1).pending.trans opened
  have consumed : ∀ (t : State) c, (t.takeConsumed c).pending = t.pending := fun t c => by
    cases c with
    | none => rfl
    | some c => exact t.takeCommand_pending _ _ _
  unfold State.outboundGood
  refine (consumed _ _).trans (?_ : State.pending (if _ then _ else _) = _)
  split
  · exact (State.raise_pending _ _ _ _).trans tapped
  · exact tapped

theorem State.outboundBad_pending (slots : List Slot) : (s.outboundBad slots).pending = s.pending := by
  have raised : (s.raise .headerCrc (.port .core) none).advanceSeq.pending = s.pending := s.raise_pending _ _ _
  unfold State.outboundBad
  show State.pending (if _ then _ else _) = _
  split
  · exact ((State.lostPeriod_periodWork _).trans (State.silentAppendAll_periodWork _)).pending.trans raised
  · exact raised

theorem State.timerExpires_pending : s.timerExpires.pending = s.pending := by
  have lost := ((State.lostPeriod_periodWork s.advanceSeq).trans (State.silentAppendAll_periodWork _)).pending
  unfold State.timerExpires
  split
  · exact (State.setPorts_pending _ _).trans lost
  · rfl

theorem State.takeInterlude_pending (x : Interlude) : (s.takeInterlude x).pending = s.pending := by
  cases x with
  | command code tag payload => exact s.whilePortsRun_pending (f := fun s => s.takeCommand code tag payload) (s.takeCommand_pending code tag payload)
  | outboundGood seq flags slots window stepFirst => exact s.whilePortsRun_pending (s.outboundGood_pending seq flags slots window stepFirst)
  | outboundBad slots => exact s.whilePortsRun_pending (s.outboundBad_pending slots)
  | timerExpiry => exact s.timerExpires_pending
  | seedStep => exact s.takeSeedStep_pending
  | transmit => exact s.whilePortsRun_pending s.transmit_pending

theorem State.processSlots_pending (between : List (Nat × Interlude)) (slots : List Slot) :
    (s.processSlots between slots).2.pending = s.pending :=
  State.processSlots_induction (fun t => t.pending = s.pending) s between slots rfl
    (fun op action arrived slots t c ht => (State.channelBlock_spec op action arrived slots t c).1.pending.trans ht)
    fun t x ht => (t.takeInterlude_pending x).trans ht

theorem State.sendFiller_pending (between : List (Nat × Interlude)) (slots : List Slot) :
    (s.sendFiller between slots).pending = s.pending := by
  rw [State.sendFiller_eq]
  exact s.processSlots_pending between slots

theorem State.forwardPacket_pending (flags : Byte) (window : List Byte) : (s.forwardPacket flags window).pending = s.pending := by
  unfold State.forwardPacket
  split
  · split
    · exact s.raise_pending _ _ _
    · split
      · rfl
      · exact s.raise_pending _ _ _
  · rfl

theorem State.inboundGood_pending (seq flags : Byte) (slots : List Slot) (window : List Byte) (between : List (Nat × Interlude)) :
    (s.inboundGood seq flags slots window between).pending = s.pending :=
  (State.forwardPacket_pending _ flags window).trans (State.processSlots_pending _ between slots)

theorem State.inboundBad_pending (slots : List Slot) (between : List (Nat × Interlude)) :
    (s.inboundBad slots between).pending = s.pending := by
  refine (State.sendFiller_pending _ between _).trans ?_
  split
  · exact s.raise_pending _ _ _
  · exact s.raise_pending _ _ _

theorem State.roomAdvance_pending (between : List (Nat × Interlude)) : (s.roomAdvance between).pending = s.pending := by
  have fallen : s.roomFallsSilent.pending = s.pending := by
    unfold State.roomFallsSilent
    dsimp only
    split
    · exact State.raise_pending _ _ _ _
    · rfl
  have originated : ∀ t : State, (if t.ports.origination then t.originate between else t).pending = t.pending := fun t => by
    unfold State.originate
    split
    · split
      · rfl
      · exact t.sendFiller_pending between _
    · rfl
  unfold State.roomAdvance
  refine (originated _).trans ?_
  split
  · exact fallen
  · split <;> rfl

theorem State.takeRoomMark_pending (between : List (Nat × Interlude)) : (s.takeRoomMark between).pending = s.pending := by
  unfold State.takeRoomMark
  split
  · exact State.roomAdvance_pending _ between
  split
  · exact State.roomAdvance_pending _ between
  · rfl

end

/-! ### Rows and steps -/

/-- A transition that comes about only where it is due leaves the rows that wait. -/
theorem State.ite_pending {p : Prop} [Decidable p] {s t : State} (h : t.pending = s.pending) : (if p then t else s).pending = s.pending := by
  split
  · exact h
  · rfl

/-- No row stops: every row answers a next state, with the rows that wait behind it (spec/95). -/
theorem exec_next_pending (i : Instr) (s : State) : ∃ t, exec i s = .next t ∧ t.pending = s.pending := by
  by_cases command : (commandOf i).isSome = true
  · exact ⟨_, exec_command i s command, s.whilePortsRun_pending (s.takeRow_pending i)⟩
  cases i with
  | powerOn | resetPinAssert | resetPin => exact ⟨_, rfl, rfl⟩
  | outboundGoodArrival seq flags slots window stepFirst =>
    exact ⟨_, rfl, s.whilePortsRun_pending (s.outboundGood_pending seq flags slots window stepFirst)⟩
  | outboundBadArrival slots => exact ⟨_, rfl, s.whilePortsRun_pending (s.outboundBad_pending slots)⟩
  | blockIntervalTimerExpiry => exact ⟨_, rfl, s.timerExpires_pending⟩
  | lockAcquired => exact ⟨_, rfl, s.whilePortsRun_pending (State.ite_pending (s.lockSees_periodWork _).pending)⟩
  | lockLoss => exact ⟨_, rfl, State.ite_pending (s.lockSees_periodWork _).pending⟩
  | coreSilence => exact ⟨_, rfl, State.ite_pending s.coreSilenceRises_periodWork.pending⟩
  | roomSilenceAdvance between => exact ⟨_, rfl, s.takeRoomMark_pending between⟩
  | roomSilence between => exact ⟨_, rfl, State.ite_pending (s.takeRoomMark_pending between)⟩
  | inboundGoodArrival seq flags slots window between =>
    exact ⟨_, rfl, s.whilePortsRun_pending (s.inboundGood_pending seq flags slots window between)⟩
  | inboundBadArrival slots between => exact ⟨_, rfl, s.whilePortsRun_pending (s.inboundBad_pending slots between)⟩
  | inboundBlockTransmit => exact ⟨_, rfl, s.whilePortsRun_pending s.transmit_pending⟩
  | seedStep => exact ⟨_, rfl, s.takeSeedStep_pending⟩
  | windowEnd c capture live background => exact ⟨_, rfl, State.ite_pending (s.accumulateWindow_blockWork c _).pending⟩
  | captureClip c => exact ⟨_, rfl, State.ite_pending (s.clipTest_blockWork c true).pending⟩
  | activityHangoverExpiry r => exact ⟨_, rfl, State.ite_pending rfl⟩
  | nearHangoverExpiry c => exact ⟨_, rfl, State.ite_pending rfl⟩
  | _ => exact absurd rfl command

/-- Settles O1: the step by the queue, and every row by what each of its operations leaves waiting. -/
theorem stepTakesFrontRow : Obligations.StepTakesFrontRow := by
  refine ⟨⟨fun _ _ _ => rfl, fun s empty => ?_⟩, exec_next_pending⟩
  unfold Machine.step
  rw [empty]

end Sys2Proof.Machine
end

section
/-! The state after POWER_ON: the policy of the factory bank with every reset value (O2), and the laws of every state, which it has (O54). -/

namespace Sys2Proof.Machine

open Sys2Proof.Safety

/-! ### The factory policy (R104, R105) -/

/-- An entry without a mismatch gives its action where it fits, and is passed over where it does not. -/
theorem matchEntries_cons_action (flags : TalkFlags) (i : Nat) {e : DecisionEntry} (rest : List DecisionEntry)
    (good : e.parityBad = false) :
    (matchEntries flags i (e :: rest)).1 = if e.fits flags then e.action else (matchEntries flags (i + 1) rest).1 := by
  split
  · next fit => rw [matchEntries_fit flags i rest good fit]
  · next misfit => rw [matchEntries_misfit flags i rest good (Bool.eq_false_iff.mpr misfit)]

/-- Entries that are not valid leave the default action. -/
theorem matchEntries_replicate_blank (flags : TalkFlags) (i n : Nat) :
    (matchEntries flags i (List.replicate n DecisionEntry.blank)).1 = defaultAction := by
  refine congrArg Prod.fst (matchEntries_none flags i _ fun e blank => .inr ?_)
  rw [List.eq_of_mem_replicate blank]
  rfl

/-- The flags that the first five factory entries ask for, in the order of the bank; an entry's action has no part in it (R104). -/
theorem factory_fits (g : TalkFlags) (adapt : Bool) (target : Nat) (fill : Bool) :
    (DecisionEntry.factory 0b0001000 0b0001000 adapt target fill).fits g = g.c ∧
      (DecisionEntry.factory 0b0000010 0b0000010 adapt target fill).fits g = g.s ∧
      (DecisionEntry.factory 0b1000001 0b1000001 adapt target fill).fits g = (g.u && g.f) ∧
      (DecisionEntry.factory 0b0010000 0b0010000 adapt target fill).fits g = g.d ∧
      (DecisionEntry.factory 0b1100000 0b1000000 adapt target fill).fits g = (g.f && !g.n) := by
  refine ⟨?_, ?_, ?_, ?_, ?_⟩
  all_goals
    rw [Bool.eq_iff_iff, DecisionEntry.fits_iff_flags]
    simp [DecisionEntry.factory, and_comm]

/-- The factory policy: the action of the first entry that fits. The last valid entry has the default action, so it need not be told from
the entries that are not valid after it (R104, R105). -/
theorem matchEntries_factory (g : TalkFlags) (n : Nat) :
    (matchEntries g 0 (factoryEntries ++ List.replicate n DecisionEntry.blank)).1 =
      if g.c then { adapt := false, stepScale := 0, target := 0, fill := false }
      else if g.s then { adapt := false, stepScale := 0, target := 6, fill := false }
      else if g.u && g.f then { adapt := true, stepScale := 0, target := 0, fill := false }
      else if g.d then { adapt := false, stepScale := 0, target := 6, fill := false }
      else if g.f && !g.n then { adapt := true, stepScale := 0, target := 18, fill := true }
      else { adapt := false, stepScale := 0, target := 0, fill := false } := by
  have last : (DecisionEntry.factory 0b1000000 0b0000000 false 0 false).action = defaultAction := rfl
  have clipped := (factory_fits g false 0 false).1
  obtain ⟨_, seeding, _, double, _⟩ := factory_fits g false 6 false
  obtain ⟨_, _, unconverged, _, _⟩ := factory_fits g true 0 false
  obtain ⟨_, _, _, _, farAlone⟩ := factory_fits g true 18 true
  simp only [factoryEntries, List.cons_append, List.nil_append]
  iterate 6 rw [matchEntries_cons_action g _ _ rfl]
  rw [matchEntries_replicate_blank, last, ite_self, clipped, seeding, unconverged, double, farAlone]
  rfl

/-- Settles O2: each field of the reset state read off, and the factory bank's policy. -/
theorem powerOnResetValues : Obligations.PowerOnResetValues :=
  ⟨⟨fun _ => rfl, rfl, fun _ => rfl, rfl, rfl, rfl, rfl, rfl, rfl, rfl, rfl, rfl, rfl, rfl, rfl, rfl, rfl, rfl, rfl, rfl, rfl, rfl, rfl, rfl,
    rfl⟩, rfl, fun g => matchEntries_factory g 10⟩

/-! ### The laws of the reset state -/

/-- The three packet queues are empty after a reset (R136, R147, R155, R157). -/
theorem queuesBounded_reset : QueuesBounded State.reset := ⟨Nat.zero_le 16, Nat.zero_le 8, Nat.zero_le 8⟩

/-- The first-fault record is empty after power-on and the multiple flag clear (R167, R170). -/
theorem faultLogSound_reset : FaultLogSound State.reset.unit := (rfl : State.reset.unit.multiple = false)

/-- Settles O54: law by law. -/
theorem lawsHoldAtReset : Obligations.LawsHoldAtReset :=
  ⟨tablesSized_reset, queuesBounded_reset, faultLogSound_reset, poolSound_reset, slotsDistinct_reset, portsSound_reset, fieldsInRange_reset,
    pathsSound_reset⟩

end Sys2Proof.Machine
end

section
/-! CLEAR FAULTS (O52): what a clearing leaves of the fault unit, and the command's one check (R168). -/

namespace Sys2Proof.Machine

open Sys2Proof.Safety

/-- The record is named by a set exactly when it is occupied and its class is in the set. -/
theorem FaultUnit.recordIn_iff (u : FaultUnit) (classes : BitVec 12) :
    u.recordIn classes = true ↔ ∃ r, u.record = some r ∧ classes.getLsbD r.cls.code = true := by
  unfold FaultUnit.recordIn
  cases u.record <;> simp

/-- What a clearing leaves of the unit, field by field. -/
theorem FaultUnit.clear_eq (u : FaultUnit) (classes : BitVec 12) :
    u.clear classes =
      { u with
        status := u.status &&& ~~~classes
        record := if u.recordIn classes then none else u.record
        multiple := if u.recordIn classes then false else u.multiple } := by
  unfold FaultUnit.clear
  by_cases named : u.recordIn classes = true <;> simp only [named, if_true, if_false, Bool.false_eq_true]

theorem FaultUnit.clear_isSet (u : FaultUnit) (classes : BitVec 12) (c : FaultClass) :
    (u.clear classes).isSet c = (u.isSet c && !classes.getLsbD c.code) := by
  simp [FaultUnit.clear_eq, FaultUnit.isSet, c.code_lt]

/-- The twelve bits that name classes are those of the half-word. -/
theorem getLsbD_setWidth_code (h : Half) (c : FaultClass) : (h.setWidth 12).getLsbD c.code = h.getLsbD c.code := by
  simp [c.code_lt]

/-- CLEAR FAULTS taken: a set of 4096 or more names a bit that is no class (R168). -/
theorem exec_clearFaults {s : State} (tag : Byte) (classes : Half) (accepting : Accepting s) :
    exec (.clearFaults tag classes) s =
      .next
        (if 4096 ≤ classes.toNat then replied s tag 0x82 .range []
        else replied { s with unit := s.unit.clear (classes.setWidth 12) } tag 0x82 .done []) := by
  refine Eq.trans (exec_taken (i := .clearFaults tag classes) accepting rfl) ?_
  simp only [namesNoClass_eq, decide_eq_true_eq]
  split <;> rfl

/-- Settles O52: the range check, and the fields that a clearing leaves. -/
theorem clearFaultsEffect : Obligations.ClearFaultsEffect := by
  intro s tag classes accepting
  refine ⟨fun beyond => ?_, fun inRange => ⟨s.unit.clear (classes.setWidth 12), ?_, fun c => ?_, fun named => ?_, fun other => ?_, ?_⟩⟩
  · rw [exec_clearFaults tag classes accepting, if_pos beyond]
  · rw [exec_clearFaults tag classes accepting, if_neg (Nat.not_le.mpr inRange)]
  · rw [FaultUnit.clear_isSet, getLsbD_setWidth_code]
  all_goals rw [FaultUnit.clear_eq]
  · simp only [← getLsbD_setWidth_code, ← FaultUnit.recordIn_iff] at named
    exact ⟨if_pos named, if_pos named⟩
  · simp only [← getLsbD_setWidth_code, ← FaultUnit.recordIn_iff] at other
    exact ⟨if_neg other, if_neg other⟩
  · exact ⟨rfl, rfl, rfl, rfl, rfl⟩

end Sys2Proof.Machine
end

section
/-! The CRC (O37). A register fed its own most significant bit only shifts, and fed the other bit it ends with its lowest bit set, as the
generator has that bit (R174). So up to sixteen bits bring the register to zero exactly when they are the bits it held, most significant
first. -/

namespace Sys2Proof.Machine

/-! ### The register fed one bit -/

/-- The generator enters exactly when the register's top bit and the bit fed differ. -/
theorem crcBit_eq_xor (r : BitVec 16) (bit : Bool) :
    crcBit r bit = (r <<< 1) ^^^ (if r.getLsbD 15 != bit then 0b0001000000100001 else 0) := by
  have top : r.msb = r.getLsbD 15 := BitVec.msb_eq_getLsbD_last r
  rw [crcBit, top, ← Bool.bne_eq_xor]
  split
  · rfl
  · exact BitVec.xor_zero.symm

@[simp] theorem crcBit_msb (r : BitVec 16) : crcBit r r.msb = r <<< 1 := by simp [crcBit]

/-- The lowest bit of the register tells whether the bit fed was the register's own. -/
theorem crcBit_lowest (r : BitVec 16) (bit : Bool) : (crcBit r bit).getMsbD 15 = (r.msb ^^ bit) := by
  cases differ : (r.msb ^^ bit) <;> simp [crcBit, differ, BitVec.getMsbD]

/-- A register fed one of at most sixteen bits holds the others, exactly when it held all of them before. -/
theorem crcBit_holds_iff (r : BitVec 16) (bit : Bool) {rest : List Bool} (short : rest.length < 16) :
    (∀ i < 16, (crcBit r bit).getMsbD i = rest.getD i false) ↔ ∀ i < 16, r.getMsbD i = (bit :: rest).getD i false := by
  have beyond : rest.getD 15 false = false := List.getD_eq_default _ _ (by omega)
  constructor
  · intro after i small
    have own : r.msb = bit := by
      have lowest := after 15 (by decide)
      rwa [crcBit_lowest, beyond, ← Bool.bne_eq_xor, bne_eq_false_iff_eq] at lowest
    subst own
    cases i with
    | zero => rfl
    | succ i => simpa [BitVec.getMsbD_shiftLeft, small, Nat.add_comm] using after i (by omega)
  · intro before i small
    obtain rfl : r.msb = bit := before 0 (by decide)
    rw [crcBit_msb, BitVec.getMsbD_shiftLeft]
    by_cases last : i = 15
    · subst last
      rw [beyond]
      exact BitVec.getMsbD_of_ge _ _ (by decide)
    · exact before (i + 1) (by omega)

/-! ### The register over a byte, and over the two bytes that follow -/

theorem foldl_crcBit_eq_zero_iff {bits : List Bool} (r : BitVec 16) (short : bits.length ≤ 16) :
    bits.foldl crcBit r = 0 ↔ ∀ i < 16, r.getMsbD i = bits.getD i false := by
  induction bits generalizing r with
  | nil =>
    constructor
    · rintro rfl i -
      exact BitVec.getMsbD_zero
    · exact fun clear => BitVec.eq_of_getMsbD_eq fun i small => (clear i small).trans BitVec.getMsbD_zero.symm
  | cons bit rest ih =>
    rw [List.length_cons] at short
    rw [List.foldl_cons, ih _ (by omega), crcBit_holds_iff r bit (by omega)]

theorem crcByte_eq_foldl_xor (r : BitVec 16) (b : Byte) :
    crcByte r b =
      (byteBits b).foldl (fun (r : BitVec 16) bit => (r <<< 1) ^^^ (if r.getLsbD 15 != bit then 0b0001000000100001 else 0)) r := by
  simp only [← crcBit_eq_xor]
  rfl

theorem byteBits_getD (b : Byte) {i : Nat} (small : i < 8) : (byteBits b).getD i false = b.getMsbD i := by
  have spelt : byteBits b = (List.range 8).map b.getMsbD := rfl
  simp [spelt, small]

/-- The bits on the line of two bytes are those of the field they spell (R172). -/
theorem halfOf_getMsbD (x y : Byte) {i : Nat} (small : i < 16) :
    (halfOf x y).getMsbD i = (byteBits x ++ byteBits y).getD i false := by
  rw [halfOf, BitVec.getMsbD_append]
  by_cases second : 8 ≤ i
  · rw [if_pos second, List.getD_append_right _ _ _ _ second, byteBits_length, byteBits_getD y (by omega)]
  · rw [if_neg second, List.getD_append _ _ _ _ (by rw [byteBits_length]; omega), byteBits_getD x (by omega)]

theorem crcByte_crcByte_eq_zero_iff (r : BitVec 16) (x y : Byte) : crcByte (crcByte r x) y = 0 ↔ r = halfOf x y := by
  rw [crcByte, crcByte, ← List.foldl_append, foldl_crcBit_eq_zero_iff r (by simp [byteBits_length])]
  constructor
  · exact fun held => BitVec.eq_of_getMsbD_eq fun i small => (held i small).trans (halfOf_getMsbD x y small).symm
  · rintro rfl i small
    exact halfOf_getMsbD x y small

theorem halfBytes_eq_iff (h : Half) (x y : Byte) : halfBytes h = [x, y] ↔ h = halfOf x y := by
  constructor
  · intro spelt
    obtain ⟨rfl, rfl⟩ : h.extractLsb' 8 8 = x ∧ h.extractLsb' 0 8 = y := by simpa [halfBytes] using spelt
    exact (halfOf_halfBytes h).symm
  · rintro rfl
    exact halfBytes_halfOf x y

theorem crc_append (bytes more : List Byte) : crc (bytes ++ more) = more.foldl crcByte (crc bytes) := List.foldl_append

/-- Settles O37: the bit rule, and the residue over bytes and the two that follow them. -/
theorem crcResidueIsZero : Obligations.CrcResidueIsZero := by
  refine ⟨rfl, fun bytes b => crc_append bytes [b], fun r b => crcByte_eq_foldl_xor r b, fun bytes x y => ?_⟩
  rw [crc_append, halfBytes_eq_iff]
  exact crcByte_crcByte_eq_zero_iff (crc bytes) x y

end Sys2Proof.Machine
end
